-- ==== Sys2Proof/Word.lean ====
section
/-! DEFINITION. The two word types of the core (R10, R13): 8-bit data and 16-bit addresses. -/

namespace Sys2Proof

/-- A byte: the width of A, X, Y, S, P, of every operand byte and of every bus access (R10, R54). -/
abbrev Byte := BitVec 8

/-- A 16-bit word: the program counter and every address (R10); arithmetic on it wraps modulo 65536 (R14). -/
abbrev Word := BitVec 16

end Sys2Proof
end

