-- ==== Sys2Proof/Config.lean ====
section
/-! DEFINITION. What is fixed for this core: the named parameters of R11 at the values the spec gives them, the
addresses the core fixes (R57), and what a byte of memory that nothing has written reads as. The spec leaves no
instruction's result undefined, so there is no free value here. -/

namespace Sys2Proof.Config

/-- `ANE_MAGIC` (R11, R182, D11): the constant ORed into A by ANE. -/
def aneMagic : Byte := 0xEE

/-- `LXA_MAGIC` (R11, R183, D11): the constant ORed into A by LXA. -/
def lxaMagic : Byte := 0xEE

/-- The NMI vector's low-byte address (R57). -/
def nmiVector : Word := 0xFFFA

/-- The reset vector's low-byte address (R57). -/
def resetVector : Word := 0xFFFC

/-- The IRQ/BRK vector's low-byte address (R57). -/
def irqVector : Word := 0xFFFE

/-- The fixed high byte of every stack address (R23, R57). -/
def stackPage : Byte := 0x01

/-- What an address the memory does not list reads as. DESIGN CHOICE (log entry 2, unsafe): the spec gives no power-on
contents (N4); 0x00 is the convention of the spec's own test vectors (95_test_vectors.md, section 0). -/
def unlistedByte : Byte := 0x00

end Sys2Proof.Config
end

