-- ==== Sys2Proof/Syntax.lean ====
section
/-! DEFINITION. The instruction set as syntax: the 13 addressing modes, the access classes, the 76 mnemonics, the record an
opcode's table entry is (R71), and `Instr`, one constructor per row of spec/opcode_table.json (R72), its operand already
assembled (R69): a zero-page address, an immediate or a branch offset is a byte, an absolute or pointer operand a word. -/

namespace Sys2Proof

/-- The 13 addressing modes (R71, R82 to R96). -/
inductive Mode where
  | implied | accumulator | immediate | relative
  | zeropage | zeropageX | zeropageY
  | absolute | absoluteX | absoluteY
  | indirect | indirectX | indirectY
deriving DecidableEq, Repr

/-- The access classes (R71): how an instruction uses its operand's address. -/
inductive AccessClass where
  | read | write | rmw | control | halt
deriving DecidableEq, Repr

/-- The 76 mnemonics (R73): 56 documented, then 20 undocumented. -/
inductive Mnemonic where
  | adc | and | asl | bcc | bcs | beq | bit | bmi | bne | bpl | brk | bvc | bvs | clc
  | cld | cli | clv | cmp | cpx | cpy | dec | dex | dey | eor | inc | inx | iny | jmp
  | jsr | lda | ldx | ldy | lsr | nop | ora | pha | php | pla | plp | rol | ror | rti
  | rts | sbc | sec | sed | sei | sta | stx | sty | tax | tay | tsx | txa | txs | tya
  | alr | anc | ane | arr | dcp | isc | jam | las | lax | lxa
  | rla | rra | sax | sbx | sha | shx | shy | slo | sre | tas
deriving DecidableEq, Repr

/-- One entry of the instruction table (R71): `cycles` is the base count, `boundary` says that the opcode pays one more cycle
when indexing crosses a page (R74), `illegal` is documentation only (R167). -/
structure Row where
  mnemonic : Mnemonic
  mode : Mode
  cycles : Nat
  boundary : Bool
  illegal : Bool
  cls : AccessClass
deriving DecidableEq, Repr

/-- The instructions: one constructor per row of the opcode map (R72), in opcode order, named by the row's mnemonic and mode.
Rows that alias to one mnemonic-mode pair and have one rule (R73: the undocumented NOPs, ANC and JAM) are one constructor
whose first field `op` is the row's opcode byte; `Instr.WellFormed` asks that it be one of the pair's opcodes. NOP 0xEA (R166)
and 0xEB, the undocumented second SBC immediate (`usbcImm`, R181), have a rule and a constructor of their own. (One
constructor for each of the 256 bytes is more than Lean can compile: its limit is 245.) -/
inductive Instr where
  | brk
  | oraIndX (zp : Byte)
  | jam (op : Byte)
  | sloIndX (zp : Byte)
  | nopZp (op : Byte) (zp : Byte)
  | oraZp (zp : Byte)
  | aslZp (zp : Byte)
  | sloZp (zp : Byte)
  | php
  | oraImm (m : Byte)
  | aslAcc
  | ancImm (op : Byte) (m : Byte)
  | nopAbs (addr : Word)
  | oraAbs (addr : Word)
  | aslAbs (addr : Word)
  | sloAbs (addr : Word)
  | bpl (off : Byte)
  | oraIndY (zp : Byte)
  | sloIndY (zp : Byte)
  | nopZpX (op : Byte) (zp : Byte)
  | oraZpX (zp : Byte)
  | aslZpX (zp : Byte)
  | sloZpX (zp : Byte)
  | clc
  | oraAbsY (addr : Word)
  | nopImp (op : Byte)
  | sloAbsY (addr : Word)
  | nopAbsX (op : Byte) (addr : Word)
  | oraAbsX (addr : Word)
  | aslAbsX (addr : Word)
  | sloAbsX (addr : Word)
  | jsr (target : Word)
  | andIndX (zp : Byte)
  | rlaIndX (zp : Byte)
  | bitZp (zp : Byte)
  | andZp (zp : Byte)
  | rolZp (zp : Byte)
  | rlaZp (zp : Byte)
  | plp
  | andImm (m : Byte)
  | rolAcc
  | bitAbs (addr : Word)
  | andAbs (addr : Word)
  | rolAbs (addr : Word)
  | rlaAbs (addr : Word)
  | bmi (off : Byte)
  | andIndY (zp : Byte)
  | rlaIndY (zp : Byte)
  | andZpX (zp : Byte)
  | rolZpX (zp : Byte)
  | rlaZpX (zp : Byte)
  | sec
  | andAbsY (addr : Word)
  | rlaAbsY (addr : Word)
  | andAbsX (addr : Word)
  | rolAbsX (addr : Word)
  | rlaAbsX (addr : Word)
  | rti
  | eorIndX (zp : Byte)
  | sreIndX (zp : Byte)
  | eorZp (zp : Byte)
  | lsrZp (zp : Byte)
  | sreZp (zp : Byte)
  | pha
  | eorImm (m : Byte)
  | lsrAcc
  | alrImm (m : Byte)
  | jmpAbs (target : Word)
  | eorAbs (addr : Word)
  | lsrAbs (addr : Word)
  | sreAbs (addr : Word)
  | bvc (off : Byte)
  | eorIndY (zp : Byte)
  | sreIndY (zp : Byte)
  | eorZpX (zp : Byte)
  | lsrZpX (zp : Byte)
  | sreZpX (zp : Byte)
  | cli
  | eorAbsY (addr : Word)
  | sreAbsY (addr : Word)
  | eorAbsX (addr : Word)
  | lsrAbsX (addr : Word)
  | sreAbsX (addr : Word)
  | rts
  | adcIndX (zp : Byte)
  | rraIndX (zp : Byte)
  | adcZp (zp : Byte)
  | rorZp (zp : Byte)
  | rraZp (zp : Byte)
  | pla
  | adcImm (m : Byte)
  | rorAcc
  | arrImm (m : Byte)
  | jmpInd (ptr : Word)
  | adcAbs (addr : Word)
  | rorAbs (addr : Word)
  | rraAbs (addr : Word)
  | bvs (off : Byte)
  | adcIndY (zp : Byte)
  | rraIndY (zp : Byte)
  | adcZpX (zp : Byte)
  | rorZpX (zp : Byte)
  | rraZpX (zp : Byte)
  | sei
  | adcAbsY (addr : Word)
  | rraAbsY (addr : Word)
  | adcAbsX (addr : Word)
  | rorAbsX (addr : Word)
  | rraAbsX (addr : Word)
  | nopImm (op : Byte) (m : Byte)
  | staIndX (zp : Byte)
  | saxIndX (zp : Byte)
  | styZp (zp : Byte)
  | staZp (zp : Byte)
  | stxZp (zp : Byte)
  | saxZp (zp : Byte)
  | dey
  | txa
  | aneImm (m : Byte)
  | styAbs (addr : Word)
  | staAbs (addr : Word)
  | stxAbs (addr : Word)
  | saxAbs (addr : Word)
  | bcc (off : Byte)
  | staIndY (zp : Byte)
  | shaIndY (zp : Byte)
  | styZpX (zp : Byte)
  | staZpX (zp : Byte)
  | stxZpY (zp : Byte)
  | saxZpY (zp : Byte)
  | tya
  | staAbsY (addr : Word)
  | txs
  | tasAbsY (addr : Word)
  | shyAbsX (addr : Word)
  | staAbsX (addr : Word)
  | shxAbsY (addr : Word)
  | shaAbsY (addr : Word)
  | ldyImm (m : Byte)
  | ldaIndX (zp : Byte)
  | ldxImm (m : Byte)
  | laxIndX (zp : Byte)
  | ldyZp (zp : Byte)
  | ldaZp (zp : Byte)
  | ldxZp (zp : Byte)
  | laxZp (zp : Byte)
  | tay
  | ldaImm (m : Byte)
  | tax
  | lxaImm (m : Byte)
  | ldyAbs (addr : Word)
  | ldaAbs (addr : Word)
  | ldxAbs (addr : Word)
  | laxAbs (addr : Word)
  | bcs (off : Byte)
  | ldaIndY (zp : Byte)
  | laxIndY (zp : Byte)
  | ldyZpX (zp : Byte)
  | ldaZpX (zp : Byte)
  | ldxZpY (zp : Byte)
  | laxZpY (zp : Byte)
  | clv
  | ldaAbsY (addr : Word)
  | tsx
  | lasAbsY (addr : Word)
  | ldyAbsX (addr : Word)
  | ldaAbsX (addr : Word)
  | ldxAbsY (addr : Word)
  | laxAbsY (addr : Word)
  | cpyImm (m : Byte)
  | cmpIndX (zp : Byte)
  | dcpIndX (zp : Byte)
  | cpyZp (zp : Byte)
  | cmpZp (zp : Byte)
  | decZp (zp : Byte)
  | dcpZp (zp : Byte)
  | iny
  | cmpImm (m : Byte)
  | dex
  | sbxImm (m : Byte)
  | cpyAbs (addr : Word)
  | cmpAbs (addr : Word)
  | decAbs (addr : Word)
  | dcpAbs (addr : Word)
  | bne (off : Byte)
  | cmpIndY (zp : Byte)
  | dcpIndY (zp : Byte)
  | cmpZpX (zp : Byte)
  | decZpX (zp : Byte)
  | dcpZpX (zp : Byte)
  | cld
  | cmpAbsY (addr : Word)
  | dcpAbsY (addr : Word)
  | cmpAbsX (addr : Word)
  | decAbsX (addr : Word)
  | dcpAbsX (addr : Word)
  | cpxImm (m : Byte)
  | sbcIndX (zp : Byte)
  | iscIndX (zp : Byte)
  | cpxZp (zp : Byte)
  | sbcZp (zp : Byte)
  | incZp (zp : Byte)
  | iscZp (zp : Byte)
  | inx
  | sbcImm (m : Byte)
  | nop
  | usbcImm (m : Byte)
  | cpxAbs (addr : Word)
  | sbcAbs (addr : Word)
  | incAbs (addr : Word)
  | iscAbs (addr : Word)
  | beq (off : Byte)
  | sbcIndY (zp : Byte)
  | iscIndY (zp : Byte)
  | sbcZpX (zp : Byte)
  | incZpX (zp : Byte)
  | iscZpX (zp : Byte)
  | sed
  | sbcAbsY (addr : Word)
  | iscAbsY (addr : Word)
  | sbcAbsX (addr : Word)
  | incAbsX (addr : Word)
  | iscAbsX (addr : Word)
deriving DecidableEq, Repr

end Sys2Proof
end

