-- ==== Sys2Proof/Decode.lean ====
section
/-! DEFINITION. The instruction decoder: byte order and sign extension, the opcode map (R72) with every entry's cycles, flags
and class (R70, R74, R75), `decode`, total on any list of bytes and rejecting by name, and `encode`, written from the same map.
One lookup of the whole opcode byte decides everything (R67, R68). -/

namespace Sys2Proof

/-! Byte order (R13, R14, R51). -/

/-- `lo(w) = w[7:0]` (R13). -/
def loByte (w : Word) : Byte := w.extractLsb' 0 8

/-- `hi(w) = w[15:8]` (R13). -/
def hiByte (w : Word) : Byte := w.extractLsb' 8 8

/-- The word `h:l = h * 256 + l` (R13). -/
def mkWord (h l : Byte) : Word := h ++ l

/-- `zext_16(b)` (R14): a byte as an address in page 0. -/
def zeroPage (b : Byte) : Word := mkWord 0 b

/-- `sext_8(b)` as a 16-bit word (R14): a branch offset. -/
def signExtend (b : Byte) : Word := b.signExtend 16

/-! Lengths (R66). -/

/-- How many operand bytes follow the opcode: a function of the mode alone (R66). -/
def Mode.operandBytes : Mode → Nat
  | .implied | .accumulator => 0
  | .immediate | .relative | .zeropage | .zeropageX | .zeropageY | .indirectX | .indirectY => 1
  | .absolute | .absoluteX | .absoluteY | .indirect => 2

/-- The length of an instruction in bytes (R66). -/
def Row.length (r : Row) : Nat := r.mode.operandBytes + 1

/-! The opcode map (R72): row is the opcode's high nibble, column its low nibble. An entry reads mnemonic, mode, base cycles
(R219), boundary flag (R74), illegal flag, access class. -/

/-- Opcodes 0x00 to 0x0F (R72). -/
def opcodes0x : List Row := [
  ⟨.brk, .implied, 7, false, false, .control⟩,
  ⟨.ora, .indirectX, 6, false, false, .read⟩,
  ⟨.jam, .implied, 1, false, true, .halt⟩,
  ⟨.slo, .indirectX, 8, false, true, .rmw⟩,
  ⟨.nop, .zeropage, 3, false, true, .read⟩,
  ⟨.ora, .zeropage, 3, false, false, .read⟩,
  ⟨.asl, .zeropage, 5, false, false, .rmw⟩,
  ⟨.slo, .zeropage, 5, false, true, .rmw⟩,
  ⟨.php, .implied, 3, false, false, .control⟩,
  ⟨.ora, .immediate, 2, false, false, .read⟩,
  ⟨.asl, .accumulator, 2, false, false, .control⟩,
  ⟨.anc, .immediate, 2, false, true, .read⟩,
  ⟨.nop, .absolute, 4, false, true, .read⟩,
  ⟨.ora, .absolute, 4, false, false, .read⟩,
  ⟨.asl, .absolute, 6, false, false, .rmw⟩,
  ⟨.slo, .absolute, 6, false, true, .rmw⟩]

/-- Opcodes 0x10 to 0x1F (R72). -/
def opcodes1x : List Row := [
  ⟨.bpl, .relative, 2, false, false, .control⟩,
  ⟨.ora, .indirectY, 5, true, false, .read⟩,
  ⟨.jam, .implied, 1, false, true, .halt⟩,
  ⟨.slo, .indirectY, 8, false, true, .rmw⟩,
  ⟨.nop, .zeropageX, 4, false, true, .read⟩,
  ⟨.ora, .zeropageX, 4, false, false, .read⟩,
  ⟨.asl, .zeropageX, 6, false, false, .rmw⟩,
  ⟨.slo, .zeropageX, 6, false, true, .rmw⟩,
  ⟨.clc, .implied, 2, false, false, .control⟩,
  ⟨.ora, .absoluteY, 4, true, false, .read⟩,
  ⟨.nop, .implied, 2, false, true, .control⟩,
  ⟨.slo, .absoluteY, 7, false, true, .rmw⟩,
  ⟨.nop, .absoluteX, 4, true, true, .read⟩,
  ⟨.ora, .absoluteX, 4, true, false, .read⟩,
  ⟨.asl, .absoluteX, 7, false, false, .rmw⟩,
  ⟨.slo, .absoluteX, 7, false, true, .rmw⟩]

/-- Opcodes 0x20 to 0x2F (R72). -/
def opcodes2x : List Row := [
  ⟨.jsr, .absolute, 6, false, false, .control⟩,
  ⟨.and, .indirectX, 6, false, false, .read⟩,
  ⟨.jam, .implied, 1, false, true, .halt⟩,
  ⟨.rla, .indirectX, 8, false, true, .rmw⟩,
  ⟨.bit, .zeropage, 3, false, false, .read⟩,
  ⟨.and, .zeropage, 3, false, false, .read⟩,
  ⟨.rol, .zeropage, 5, false, false, .rmw⟩,
  ⟨.rla, .zeropage, 5, false, true, .rmw⟩,
  ⟨.plp, .implied, 4, false, false, .control⟩,
  ⟨.and, .immediate, 2, false, false, .read⟩,
  ⟨.rol, .accumulator, 2, false, false, .control⟩,
  ⟨.anc, .immediate, 2, false, true, .read⟩,
  ⟨.bit, .absolute, 4, false, false, .read⟩,
  ⟨.and, .absolute, 4, false, false, .read⟩,
  ⟨.rol, .absolute, 6, false, false, .rmw⟩,
  ⟨.rla, .absolute, 6, false, true, .rmw⟩]

/-- Opcodes 0x30 to 0x3F (R72). -/
def opcodes3x : List Row := [
  ⟨.bmi, .relative, 2, false, false, .control⟩,
  ⟨.and, .indirectY, 5, true, false, .read⟩,
  ⟨.jam, .implied, 1, false, true, .halt⟩,
  ⟨.rla, .indirectY, 8, false, true, .rmw⟩,
  ⟨.nop, .zeropageX, 4, false, true, .read⟩,
  ⟨.and, .zeropageX, 4, false, false, .read⟩,
  ⟨.rol, .zeropageX, 6, false, false, .rmw⟩,
  ⟨.rla, .zeropageX, 6, false, true, .rmw⟩,
  ⟨.sec, .implied, 2, false, false, .control⟩,
  ⟨.and, .absoluteY, 4, true, false, .read⟩,
  ⟨.nop, .implied, 2, false, true, .control⟩,
  ⟨.rla, .absoluteY, 7, false, true, .rmw⟩,
  ⟨.nop, .absoluteX, 4, true, true, .read⟩,
  ⟨.and, .absoluteX, 4, true, false, .read⟩,
  ⟨.rol, .absoluteX, 7, false, false, .rmw⟩,
  ⟨.rla, .absoluteX, 7, false, true, .rmw⟩]

/-- Opcodes 0x40 to 0x4F (R72). -/
def opcodes4x : List Row := [
  ⟨.rti, .implied, 6, false, false, .control⟩,
  ⟨.eor, .indirectX, 6, false, false, .read⟩,
  ⟨.jam, .implied, 1, false, true, .halt⟩,
  ⟨.sre, .indirectX, 8, false, true, .rmw⟩,
  ⟨.nop, .zeropage, 3, false, true, .read⟩,
  ⟨.eor, .zeropage, 3, false, false, .read⟩,
  ⟨.lsr, .zeropage, 5, false, false, .rmw⟩,
  ⟨.sre, .zeropage, 5, false, true, .rmw⟩,
  ⟨.pha, .implied, 3, false, false, .control⟩,
  ⟨.eor, .immediate, 2, false, false, .read⟩,
  ⟨.lsr, .accumulator, 2, false, false, .control⟩,
  ⟨.alr, .immediate, 2, false, true, .read⟩,
  ⟨.jmp, .absolute, 3, false, false, .control⟩,
  ⟨.eor, .absolute, 4, false, false, .read⟩,
  ⟨.lsr, .absolute, 6, false, false, .rmw⟩,
  ⟨.sre, .absolute, 6, false, true, .rmw⟩]

/-- Opcodes 0x50 to 0x5F (R72). -/
def opcodes5x : List Row := [
  ⟨.bvc, .relative, 2, false, false, .control⟩,
  ⟨.eor, .indirectY, 5, true, false, .read⟩,
  ⟨.jam, .implied, 1, false, true, .halt⟩,
  ⟨.sre, .indirectY, 8, false, true, .rmw⟩,
  ⟨.nop, .zeropageX, 4, false, true, .read⟩,
  ⟨.eor, .zeropageX, 4, false, false, .read⟩,
  ⟨.lsr, .zeropageX, 6, false, false, .rmw⟩,
  ⟨.sre, .zeropageX, 6, false, true, .rmw⟩,
  ⟨.cli, .implied, 2, false, false, .control⟩,
  ⟨.eor, .absoluteY, 4, true, false, .read⟩,
  ⟨.nop, .implied, 2, false, true, .control⟩,
  ⟨.sre, .absoluteY, 7, false, true, .rmw⟩,
  ⟨.nop, .absoluteX, 4, true, true, .read⟩,
  ⟨.eor, .absoluteX, 4, true, false, .read⟩,
  ⟨.lsr, .absoluteX, 7, false, false, .rmw⟩,
  ⟨.sre, .absoluteX, 7, false, true, .rmw⟩]

/-- Opcodes 0x60 to 0x6F (R72). -/
def opcodes6x : List Row := [
  ⟨.rts, .implied, 6, false, false, .control⟩,
  ⟨.adc, .indirectX, 6, false, false, .read⟩,
  ⟨.jam, .implied, 1, false, true, .halt⟩,
  ⟨.rra, .indirectX, 8, false, true, .rmw⟩,
  ⟨.nop, .zeropage, 3, false, true, .read⟩,
  ⟨.adc, .zeropage, 3, false, false, .read⟩,
  ⟨.ror, .zeropage, 5, false, false, .rmw⟩,
  ⟨.rra, .zeropage, 5, false, true, .rmw⟩,
  ⟨.pla, .implied, 4, false, false, .control⟩,
  ⟨.adc, .immediate, 2, false, false, .read⟩,
  ⟨.ror, .accumulator, 2, false, false, .control⟩,
  ⟨.arr, .immediate, 2, false, true, .read⟩,
  ⟨.jmp, .indirect, 5, false, false, .control⟩,
  ⟨.adc, .absolute, 4, false, false, .read⟩,
  ⟨.ror, .absolute, 6, false, false, .rmw⟩,
  ⟨.rra, .absolute, 6, false, true, .rmw⟩]

/-- Opcodes 0x70 to 0x7F (R72). -/
def opcodes7x : List Row := [
  ⟨.bvs, .relative, 2, false, false, .control⟩,
  ⟨.adc, .indirectY, 5, true, false, .read⟩,
  ⟨.jam, .implied, 1, false, true, .halt⟩,
  ⟨.rra, .indirectY, 8, false, true, .rmw⟩,
  ⟨.nop, .zeropageX, 4, false, true, .read⟩,
  ⟨.adc, .zeropageX, 4, false, false, .read⟩,
  ⟨.ror, .zeropageX, 6, false, false, .rmw⟩,
  ⟨.rra, .zeropageX, 6, false, true, .rmw⟩,
  ⟨.sei, .implied, 2, false, false, .control⟩,
  ⟨.adc, .absoluteY, 4, true, false, .read⟩,
  ⟨.nop, .implied, 2, false, true, .control⟩,
  ⟨.rra, .absoluteY, 7, false, true, .rmw⟩,
  ⟨.nop, .absoluteX, 4, true, true, .read⟩,
  ⟨.adc, .absoluteX, 4, true, false, .read⟩,
  ⟨.ror, .absoluteX, 7, false, false, .rmw⟩,
  ⟨.rra, .absoluteX, 7, false, true, .rmw⟩]

/-- Opcodes 0x80 to 0x8F (R72). -/
def opcodes8x : List Row := [
  ⟨.nop, .immediate, 2, false, true, .read⟩,
  ⟨.sta, .indirectX, 6, false, false, .write⟩,
  ⟨.nop, .immediate, 2, false, true, .read⟩,
  ⟨.sax, .indirectX, 6, false, true, .write⟩,
  ⟨.sty, .zeropage, 3, false, false, .write⟩,
  ⟨.sta, .zeropage, 3, false, false, .write⟩,
  ⟨.stx, .zeropage, 3, false, false, .write⟩,
  ⟨.sax, .zeropage, 3, false, true, .write⟩,
  ⟨.dey, .implied, 2, false, false, .control⟩,
  ⟨.nop, .immediate, 2, false, true, .read⟩,
  ⟨.txa, .implied, 2, false, false, .control⟩,
  ⟨.ane, .immediate, 2, false, true, .read⟩,
  ⟨.sty, .absolute, 4, false, false, .write⟩,
  ⟨.sta, .absolute, 4, false, false, .write⟩,
  ⟨.stx, .absolute, 4, false, false, .write⟩,
  ⟨.sax, .absolute, 4, false, true, .write⟩]

/-- Opcodes 0x90 to 0x9F (R72). -/
def opcodes9x : List Row := [
  ⟨.bcc, .relative, 2, false, false, .control⟩,
  ⟨.sta, .indirectY, 6, false, false, .write⟩,
  ⟨.jam, .implied, 1, false, true, .halt⟩,
  ⟨.sha, .indirectY, 6, false, true, .write⟩,
  ⟨.sty, .zeropageX, 4, false, false, .write⟩,
  ⟨.sta, .zeropageX, 4, false, false, .write⟩,
  ⟨.stx, .zeropageY, 4, false, false, .write⟩,
  ⟨.sax, .zeropageY, 4, false, true, .write⟩,
  ⟨.tya, .implied, 2, false, false, .control⟩,
  ⟨.sta, .absoluteY, 5, false, false, .write⟩,
  ⟨.txs, .implied, 2, false, false, .control⟩,
  ⟨.tas, .absoluteY, 5, false, true, .write⟩,
  ⟨.shy, .absoluteX, 5, false, true, .write⟩,
  ⟨.sta, .absoluteX, 5, false, false, .write⟩,
  ⟨.shx, .absoluteY, 5, false, true, .write⟩,
  ⟨.sha, .absoluteY, 5, false, true, .write⟩]

/-- Opcodes 0xA0 to 0xAF (R72). -/
def opcodesAx : List Row := [
  ⟨.ldy, .immediate, 2, false, false, .read⟩,
  ⟨.lda, .indirectX, 6, false, false, .read⟩,
  ⟨.ldx, .immediate, 2, false, false, .read⟩,
  ⟨.lax, .indirectX, 6, false, true, .read⟩,
  ⟨.ldy, .zeropage, 3, false, false, .read⟩,
  ⟨.lda, .zeropage, 3, false, false, .read⟩,
  ⟨.ldx, .zeropage, 3, false, false, .read⟩,
  ⟨.lax, .zeropage, 3, false, true, .read⟩,
  ⟨.tay, .implied, 2, false, false, .control⟩,
  ⟨.lda, .immediate, 2, false, false, .read⟩,
  ⟨.tax, .implied, 2, false, false, .control⟩,
  ⟨.lxa, .immediate, 2, false, true, .read⟩,
  ⟨.ldy, .absolute, 4, false, false, .read⟩,
  ⟨.lda, .absolute, 4, false, false, .read⟩,
  ⟨.ldx, .absolute, 4, false, false, .read⟩,
  ⟨.lax, .absolute, 4, false, true, .read⟩]

/-- Opcodes 0xB0 to 0xBF (R72). -/
def opcodesBx : List Row := [
  ⟨.bcs, .relative, 2, false, false, .control⟩,
  ⟨.lda, .indirectY, 5, true, false, .read⟩,
  ⟨.jam, .implied, 1, false, true, .halt⟩,
  ⟨.lax, .indirectY, 5, true, true, .read⟩,
  ⟨.ldy, .zeropageX, 4, false, false, .read⟩,
  ⟨.lda, .zeropageX, 4, false, false, .read⟩,
  ⟨.ldx, .zeropageY, 4, false, false, .read⟩,
  ⟨.lax, .zeropageY, 4, false, true, .read⟩,
  ⟨.clv, .implied, 2, false, false, .control⟩,
  ⟨.lda, .absoluteY, 4, true, false, .read⟩,
  ⟨.tsx, .implied, 2, false, false, .control⟩,
  ⟨.las, .absoluteY, 4, true, true, .read⟩,
  ⟨.ldy, .absoluteX, 4, true, false, .read⟩,
  ⟨.lda, .absoluteX, 4, true, false, .read⟩,
  ⟨.ldx, .absoluteY, 4, true, false, .read⟩,
  ⟨.lax, .absoluteY, 4, true, true, .read⟩]

/-- Opcodes 0xC0 to 0xCF (R72). -/
def opcodesCx : List Row := [
  ⟨.cpy, .immediate, 2, false, false, .read⟩,
  ⟨.cmp, .indirectX, 6, false, false, .read⟩,
  ⟨.nop, .immediate, 2, false, true, .read⟩,
  ⟨.dcp, .indirectX, 8, false, true, .rmw⟩,
  ⟨.cpy, .zeropage, 3, false, false, .read⟩,
  ⟨.cmp, .zeropage, 3, false, false, .read⟩,
  ⟨.dec, .zeropage, 5, false, false, .rmw⟩,
  ⟨.dcp, .zeropage, 5, false, true, .rmw⟩,
  ⟨.iny, .implied, 2, false, false, .control⟩,
  ⟨.cmp, .immediate, 2, false, false, .read⟩,
  ⟨.dex, .implied, 2, false, false, .control⟩,
  ⟨.sbx, .immediate, 2, false, true, .read⟩,
  ⟨.cpy, .absolute, 4, false, false, .read⟩,
  ⟨.cmp, .absolute, 4, false, false, .read⟩,
  ⟨.dec, .absolute, 6, false, false, .rmw⟩,
  ⟨.dcp, .absolute, 6, false, true, .rmw⟩]

/-- Opcodes 0xD0 to 0xDF (R72). -/
def opcodesDx : List Row := [
  ⟨.bne, .relative, 2, false, false, .control⟩,
  ⟨.cmp, .indirectY, 5, true, false, .read⟩,
  ⟨.jam, .implied, 1, false, true, .halt⟩,
  ⟨.dcp, .indirectY, 8, false, true, .rmw⟩,
  ⟨.nop, .zeropageX, 4, false, true, .read⟩,
  ⟨.cmp, .zeropageX, 4, false, false, .read⟩,
  ⟨.dec, .zeropageX, 6, false, false, .rmw⟩,
  ⟨.dcp, .zeropageX, 6, false, true, .rmw⟩,
  ⟨.cld, .implied, 2, false, false, .control⟩,
  ⟨.cmp, .absoluteY, 4, true, false, .read⟩,
  ⟨.nop, .implied, 2, false, true, .control⟩,
  ⟨.dcp, .absoluteY, 7, false, true, .rmw⟩,
  ⟨.nop, .absoluteX, 4, true, true, .read⟩,
  ⟨.cmp, .absoluteX, 4, true, false, .read⟩,
  ⟨.dec, .absoluteX, 7, false, false, .rmw⟩,
  ⟨.dcp, .absoluteX, 7, false, true, .rmw⟩]

/-- Opcodes 0xE0 to 0xEF (R72). -/
def opcodesEx : List Row := [
  ⟨.cpx, .immediate, 2, false, false, .read⟩,
  ⟨.sbc, .indirectX, 6, false, false, .read⟩,
  ⟨.nop, .immediate, 2, false, true, .read⟩,
  ⟨.isc, .indirectX, 8, false, true, .rmw⟩,
  ⟨.cpx, .zeropage, 3, false, false, .read⟩,
  ⟨.sbc, .zeropage, 3, false, false, .read⟩,
  ⟨.inc, .zeropage, 5, false, false, .rmw⟩,
  ⟨.isc, .zeropage, 5, false, true, .rmw⟩,
  ⟨.inx, .implied, 2, false, false, .control⟩,
  ⟨.sbc, .immediate, 2, false, false, .read⟩,
  ⟨.nop, .implied, 2, false, false, .control⟩,
  ⟨.sbc, .immediate, 2, false, true, .read⟩,
  ⟨.cpx, .absolute, 4, false, false, .read⟩,
  ⟨.sbc, .absolute, 4, false, false, .read⟩,
  ⟨.inc, .absolute, 6, false, false, .rmw⟩,
  ⟨.isc, .absolute, 6, false, true, .rmw⟩]

/-- Opcodes 0xF0 to 0xFF (R72). -/
def opcodesFx : List Row := [
  ⟨.beq, .relative, 2, false, false, .control⟩,
  ⟨.sbc, .indirectY, 5, true, false, .read⟩,
  ⟨.jam, .implied, 1, false, true, .halt⟩,
  ⟨.isc, .indirectY, 8, false, true, .rmw⟩,
  ⟨.nop, .zeropageX, 4, false, true, .read⟩,
  ⟨.sbc, .zeropageX, 4, false, false, .read⟩,
  ⟨.inc, .zeropageX, 6, false, false, .rmw⟩,
  ⟨.isc, .zeropageX, 6, false, true, .rmw⟩,
  ⟨.sed, .implied, 2, false, false, .control⟩,
  ⟨.sbc, .absoluteY, 4, true, false, .read⟩,
  ⟨.nop, .implied, 2, false, true, .control⟩,
  ⟨.isc, .absoluteY, 7, false, true, .rmw⟩,
  ⟨.nop, .absoluteX, 4, true, true, .read⟩,
  ⟨.sbc, .absoluteX, 4, true, false, .read⟩,
  ⟨.inc, .absoluteX, 7, false, false, .rmw⟩,
  ⟨.isc, .absoluteX, 7, false, true, .rmw⟩]

/-- The opcode map, one list per high nibble (R72). -/
def opcodeMap : List (List Row) := [
  opcodes0x, opcodes1x, opcodes2x, opcodes3x, opcodes4x, opcodes5x, opcodes6x, opcodes7x,
  opcodes8x, opcodes9x, opcodesAx, opcodesBx, opcodesCx, opcodesDx, opcodesEx, opcodesFx]

/-- An instruction table: what a lookup of an opcode byte finds. The core's own table is total (R70); a partial table is
the "future variant" of R77, for which a miss is `InvalidOpcode`. -/
abbrev OpcodeTable := Byte → Option Row

/-- Look an opcode up in a map laid out as R72 lays it out. -/
def lookupIn {α : Type} (map : List (List α)) (op : Byte) : Option α :=
  (map[op.toNat / 16]?).bind fun row => row[op.toNat % 16]?

/-- `find(opcode)` of R68: the core's own instruction table. -/
def opcodeTable : OpcodeTable := lookupIn opcodeMap

/-! The instruction an opcode names once its operand bytes are known (R69, R72). -/

/-- The instructions of opcodes 0x00 to 0x0F, with operand bytes `b1`, `b2` (R69). -/
def instrs0x (b1 b2 : Byte) : List Instr := [
  .brk, .oraIndX b1, .jam 0x02, .sloIndX b1,
  .nopZp 0x04 b1, .oraZp b1, .aslZp b1, .sloZp b1,
  .php, .oraImm b1, .aslAcc, .ancImm 0x0B b1,
  .nopAbs (mkWord b2 b1), .oraAbs (mkWord b2 b1), .aslAbs (mkWord b2 b1), .sloAbs (mkWord b2 b1)]

/-- The instructions of opcodes 0x10 to 0x1F, with operand bytes `b1`, `b2` (R69). -/
def instrs1x (b1 b2 : Byte) : List Instr := [
  .bpl b1, .oraIndY b1, .jam 0x12, .sloIndY b1,
  .nopZpX 0x14 b1, .oraZpX b1, .aslZpX b1, .sloZpX b1,
  .clc, .oraAbsY (mkWord b2 b1), .nopImp 0x1A, .sloAbsY (mkWord b2 b1),
  .nopAbsX 0x1C (mkWord b2 b1), .oraAbsX (mkWord b2 b1), .aslAbsX (mkWord b2 b1), .sloAbsX (mkWord b2 b1)]

/-- The instructions of opcodes 0x20 to 0x2F, with operand bytes `b1`, `b2` (R69). -/
def instrs2x (b1 b2 : Byte) : List Instr := [
  .jsr (mkWord b2 b1), .andIndX b1, .jam 0x22, .rlaIndX b1,
  .bitZp b1, .andZp b1, .rolZp b1, .rlaZp b1,
  .plp, .andImm b1, .rolAcc, .ancImm 0x2B b1,
  .bitAbs (mkWord b2 b1), .andAbs (mkWord b2 b1), .rolAbs (mkWord b2 b1), .rlaAbs (mkWord b2 b1)]

/-- The instructions of opcodes 0x30 to 0x3F, with operand bytes `b1`, `b2` (R69). -/
def instrs3x (b1 b2 : Byte) : List Instr := [
  .bmi b1, .andIndY b1, .jam 0x32, .rlaIndY b1,
  .nopZpX 0x34 b1, .andZpX b1, .rolZpX b1, .rlaZpX b1,
  .sec, .andAbsY (mkWord b2 b1), .nopImp 0x3A, .rlaAbsY (mkWord b2 b1),
  .nopAbsX 0x3C (mkWord b2 b1), .andAbsX (mkWord b2 b1), .rolAbsX (mkWord b2 b1), .rlaAbsX (mkWord b2 b1)]

/-- The instructions of opcodes 0x40 to 0x4F, with operand bytes `b1`, `b2` (R69). -/
def instrs4x (b1 b2 : Byte) : List Instr := [
  .rti, .eorIndX b1, .jam 0x42, .sreIndX b1,
  .nopZp 0x44 b1, .eorZp b1, .lsrZp b1, .sreZp b1,
  .pha, .eorImm b1, .lsrAcc, .alrImm b1,
  .jmpAbs (mkWord b2 b1), .eorAbs (mkWord b2 b1), .lsrAbs (mkWord b2 b1), .sreAbs (mkWord b2 b1)]

/-- The instructions of opcodes 0x50 to 0x5F, with operand bytes `b1`, `b2` (R69). -/
def instrs5x (b1 b2 : Byte) : List Instr := [
  .bvc b1, .eorIndY b1, .jam 0x52, .sreIndY b1,
  .nopZpX 0x54 b1, .eorZpX b1, .lsrZpX b1, .sreZpX b1,
  .cli, .eorAbsY (mkWord b2 b1), .nopImp 0x5A, .sreAbsY (mkWord b2 b1),
  .nopAbsX 0x5C (mkWord b2 b1), .eorAbsX (mkWord b2 b1), .lsrAbsX (mkWord b2 b1), .sreAbsX (mkWord b2 b1)]

/-- The instructions of opcodes 0x60 to 0x6F, with operand bytes `b1`, `b2` (R69). -/
def instrs6x (b1 b2 : Byte) : List Instr := [
  .rts, .adcIndX b1, .jam 0x62, .rraIndX b1,
  .nopZp 0x64 b1, .adcZp b1, .rorZp b1, .rraZp b1,
  .pla, .adcImm b1, .rorAcc, .arrImm b1,
  .jmpInd (mkWord b2 b1), .adcAbs (mkWord b2 b1), .rorAbs (mkWord b2 b1), .rraAbs (mkWord b2 b1)]

/-- The instructions of opcodes 0x70 to 0x7F, with operand bytes `b1`, `b2` (R69). -/
def instrs7x (b1 b2 : Byte) : List Instr := [
  .bvs b1, .adcIndY b1, .jam 0x72, .rraIndY b1,
  .nopZpX 0x74 b1, .adcZpX b1, .rorZpX b1, .rraZpX b1,
  .sei, .adcAbsY (mkWord b2 b1), .nopImp 0x7A, .rraAbsY (mkWord b2 b1),
  .nopAbsX 0x7C (mkWord b2 b1), .adcAbsX (mkWord b2 b1), .rorAbsX (mkWord b2 b1), .rraAbsX (mkWord b2 b1)]

/-- The instructions of opcodes 0x80 to 0x8F, with operand bytes `b1`, `b2` (R69). -/
def instrs8x (b1 b2 : Byte) : List Instr := [
  .nopImm 0x80 b1, .staIndX b1, .nopImm 0x82 b1, .saxIndX b1,
  .styZp b1, .staZp b1, .stxZp b1, .saxZp b1,
  .dey, .nopImm 0x89 b1, .txa, .aneImm b1,
  .styAbs (mkWord b2 b1), .staAbs (mkWord b2 b1), .stxAbs (mkWord b2 b1), .saxAbs (mkWord b2 b1)]

/-- The instructions of opcodes 0x90 to 0x9F, with operand bytes `b1`, `b2` (R69). -/
def instrs9x (b1 b2 : Byte) : List Instr := [
  .bcc b1, .staIndY b1, .jam 0x92, .shaIndY b1,
  .styZpX b1, .staZpX b1, .stxZpY b1, .saxZpY b1,
  .tya, .staAbsY (mkWord b2 b1), .txs, .tasAbsY (mkWord b2 b1),
  .shyAbsX (mkWord b2 b1), .staAbsX (mkWord b2 b1), .shxAbsY (mkWord b2 b1), .shaAbsY (mkWord b2 b1)]

/-- The instructions of opcodes 0xA0 to 0xAF, with operand bytes `b1`, `b2` (R69). -/
def instrsAx (b1 b2 : Byte) : List Instr := [
  .ldyImm b1, .ldaIndX b1, .ldxImm b1, .laxIndX b1,
  .ldyZp b1, .ldaZp b1, .ldxZp b1, .laxZp b1,
  .tay, .ldaImm b1, .tax, .lxaImm b1,
  .ldyAbs (mkWord b2 b1), .ldaAbs (mkWord b2 b1), .ldxAbs (mkWord b2 b1), .laxAbs (mkWord b2 b1)]

/-- The instructions of opcodes 0xB0 to 0xBF, with operand bytes `b1`, `b2` (R69). -/
def instrsBx (b1 b2 : Byte) : List Instr := [
  .bcs b1, .ldaIndY b1, .jam 0xB2, .laxIndY b1,
  .ldyZpX b1, .ldaZpX b1, .ldxZpY b1, .laxZpY b1,
  .clv, .ldaAbsY (mkWord b2 b1), .tsx, .lasAbsY (mkWord b2 b1),
  .ldyAbsX (mkWord b2 b1), .ldaAbsX (mkWord b2 b1), .ldxAbsY (mkWord b2 b1), .laxAbsY (mkWord b2 b1)]

/-- The instructions of opcodes 0xC0 to 0xCF, with operand bytes `b1`, `b2` (R69). -/
def instrsCx (b1 b2 : Byte) : List Instr := [
  .cpyImm b1, .cmpIndX b1, .nopImm 0xC2 b1, .dcpIndX b1,
  .cpyZp b1, .cmpZp b1, .decZp b1, .dcpZp b1,
  .iny, .cmpImm b1, .dex, .sbxImm b1,
  .cpyAbs (mkWord b2 b1), .cmpAbs (mkWord b2 b1), .decAbs (mkWord b2 b1), .dcpAbs (mkWord b2 b1)]

/-- The instructions of opcodes 0xD0 to 0xDF, with operand bytes `b1`, `b2` (R69). -/
def instrsDx (b1 b2 : Byte) : List Instr := [
  .bne b1, .cmpIndY b1, .jam 0xD2, .dcpIndY b1,
  .nopZpX 0xD4 b1, .cmpZpX b1, .decZpX b1, .dcpZpX b1,
  .cld, .cmpAbsY (mkWord b2 b1), .nopImp 0xDA, .dcpAbsY (mkWord b2 b1),
  .nopAbsX 0xDC (mkWord b2 b1), .cmpAbsX (mkWord b2 b1), .decAbsX (mkWord b2 b1), .dcpAbsX (mkWord b2 b1)]

/-- The instructions of opcodes 0xE0 to 0xEF, with operand bytes `b1`, `b2` (R69). -/
def instrsEx (b1 b2 : Byte) : List Instr := [
  .cpxImm b1, .sbcIndX b1, .nopImm 0xE2 b1, .iscIndX b1,
  .cpxZp b1, .sbcZp b1, .incZp b1, .iscZp b1,
  .inx, .sbcImm b1, .nop, .usbcImm b1,
  .cpxAbs (mkWord b2 b1), .sbcAbs (mkWord b2 b1), .incAbs (mkWord b2 b1), .iscAbs (mkWord b2 b1)]

/-- The instructions of opcodes 0xF0 to 0xFF, with operand bytes `b1`, `b2` (R69). -/
def instrsFx (b1 b2 : Byte) : List Instr := [
  .beq b1, .sbcIndY b1, .jam 0xF2, .iscIndY b1,
  .nopZpX 0xF4 b1, .sbcZpX b1, .incZpX b1, .iscZpX b1,
  .sed, .sbcAbsY (mkWord b2 b1), .nopImp 0xFA, .iscAbsY (mkWord b2 b1),
  .nopAbsX 0xFC (mkWord b2 b1), .sbcAbsX (mkWord b2 b1), .incAbsX (mkWord b2 b1), .iscAbsX (mkWord b2 b1)]

/-- Every instruction with operand bytes `b1`, `b2`, laid out as the opcode map. -/
def instrMap (b1 b2 : Byte) : List (List Instr) := [
  instrs0x b1 b2, instrs1x b1 b2, instrs2x b1 b2, instrs3x b1 b2,
  instrs4x b1 b2, instrs5x b1 b2, instrs6x b1 b2, instrs7x b1 b2,
  instrs8x b1 b2, instrs9x b1 b2, instrsAx b1 b2, instrsBx b1 b2,
  instrsCx b1 b2, instrsDx b1 b2, instrsEx b1 b2, instrsFx b1 b2]

/-- The instruction with opcode `op` and operand bytes `b1`, `b2`; an instruction shorter than that ignores them. -/
def instrOf (op b1 b2 : Byte) : Option Instr := lookupIn (instrMap b1 b2) op

/-! Decoding (R66, R67, R77). -/

/-- Why a list of bytes is not an instruction. `truncated` is the decoder's own name for a list that ends before the
instruction does; it cannot arise in the machine, whose memory has a byte at every address (R48). -/
inductive DecodeError where
  | truncated
  | invalidOpcode (op : Byte)
deriving DecidableEq, Repr

/-- Decode the instruction at the head of `bytes` through `table`, returning it with the bytes after it (R66, R67, R77). -/
def decodeWith (table : OpcodeTable) (bytes : List Byte) : Except DecodeError (Instr × List Byte) :=
  match bytes with
  | [] => .error .truncated
  | op :: rest =>
    match table op with
    | none => .error (.invalidOpcode op)
    | some row =>
      if rest.length < row.mode.operandBytes then .error .truncated
      else
        match instrOf op (rest.getD 0 0) (rest.getD 1 0) with
        | none => .error (.invalidOpcode op)
        | some i => .ok (i, rest.drop row.mode.operandBytes)

/-- The core's decoder. -/
def decode (bytes : List Byte) : Except DecodeError (Instr × List Byte) := decodeWith opcodeTable bytes

/-! Encoding (R66, R69, R72). -/

/-- The bytes of an instruction with a one-byte operand. -/
def encode1 (op b : Byte) : List Byte := [op, b]

/-- The bytes of an instruction with a word operand, low byte first (R66). -/
def encode2 (op : Byte) (w : Word) : List Byte := [op, loByte w, hiByte w]

/-- The bytes of an instruction, in increasing address order (R66, R72). -/
def encode : Instr → List Byte
  | .brk => [0x00]
  | .oraIndX zp => encode1 0x01 zp
  | .jam op => [op]
  | .sloIndX zp => encode1 0x03 zp
  | .nopZp op zp => encode1 op zp
  | .oraZp zp => encode1 0x05 zp
  | .aslZp zp => encode1 0x06 zp
  | .sloZp zp => encode1 0x07 zp
  | .php => [0x08]
  | .oraImm m => encode1 0x09 m
  | .aslAcc => [0x0A]
  | .ancImm op m => encode1 op m
  | .nopAbs addr => encode2 0x0C addr
  | .oraAbs addr => encode2 0x0D addr
  | .aslAbs addr => encode2 0x0E addr
  | .sloAbs addr => encode2 0x0F addr
  | .bpl off => encode1 0x10 off
  | .oraIndY zp => encode1 0x11 zp
  | .sloIndY zp => encode1 0x13 zp
  | .nopZpX op zp => encode1 op zp
  | .oraZpX zp => encode1 0x15 zp
  | .aslZpX zp => encode1 0x16 zp
  | .sloZpX zp => encode1 0x17 zp
  | .clc => [0x18]
  | .oraAbsY addr => encode2 0x19 addr
  | .nopImp op => [op]
  | .sloAbsY addr => encode2 0x1B addr
  | .nopAbsX op addr => encode2 op addr
  | .oraAbsX addr => encode2 0x1D addr
  | .aslAbsX addr => encode2 0x1E addr
  | .sloAbsX addr => encode2 0x1F addr
  | .jsr target => encode2 0x20 target
  | .andIndX zp => encode1 0x21 zp
  | .rlaIndX zp => encode1 0x23 zp
  | .bitZp zp => encode1 0x24 zp
  | .andZp zp => encode1 0x25 zp
  | .rolZp zp => encode1 0x26 zp
  | .rlaZp zp => encode1 0x27 zp
  | .plp => [0x28]
  | .andImm m => encode1 0x29 m
  | .rolAcc => [0x2A]
  | .bitAbs addr => encode2 0x2C addr
  | .andAbs addr => encode2 0x2D addr
  | .rolAbs addr => encode2 0x2E addr
  | .rlaAbs addr => encode2 0x2F addr
  | .bmi off => encode1 0x30 off
  | .andIndY zp => encode1 0x31 zp
  | .rlaIndY zp => encode1 0x33 zp
  | .andZpX zp => encode1 0x35 zp
  | .rolZpX zp => encode1 0x36 zp
  | .rlaZpX zp => encode1 0x37 zp
  | .sec => [0x38]
  | .andAbsY addr => encode2 0x39 addr
  | .rlaAbsY addr => encode2 0x3B addr
  | .andAbsX addr => encode2 0x3D addr
  | .rolAbsX addr => encode2 0x3E addr
  | .rlaAbsX addr => encode2 0x3F addr
  | .rti => [0x40]
  | .eorIndX zp => encode1 0x41 zp
  | .sreIndX zp => encode1 0x43 zp
  | .eorZp zp => encode1 0x45 zp
  | .lsrZp zp => encode1 0x46 zp
  | .sreZp zp => encode1 0x47 zp
  | .pha => [0x48]
  | .eorImm m => encode1 0x49 m
  | .lsrAcc => [0x4A]
  | .alrImm m => encode1 0x4B m
  | .jmpAbs target => encode2 0x4C target
  | .eorAbs addr => encode2 0x4D addr
  | .lsrAbs addr => encode2 0x4E addr
  | .sreAbs addr => encode2 0x4F addr
  | .bvc off => encode1 0x50 off
  | .eorIndY zp => encode1 0x51 zp
  | .sreIndY zp => encode1 0x53 zp
  | .eorZpX zp => encode1 0x55 zp
  | .lsrZpX zp => encode1 0x56 zp
  | .sreZpX zp => encode1 0x57 zp
  | .cli => [0x58]
  | .eorAbsY addr => encode2 0x59 addr
  | .sreAbsY addr => encode2 0x5B addr
  | .eorAbsX addr => encode2 0x5D addr
  | .lsrAbsX addr => encode2 0x5E addr
  | .sreAbsX addr => encode2 0x5F addr
  | .rts => [0x60]
  | .adcIndX zp => encode1 0x61 zp
  | .rraIndX zp => encode1 0x63 zp
  | .adcZp zp => encode1 0x65 zp
  | .rorZp zp => encode1 0x66 zp
  | .rraZp zp => encode1 0x67 zp
  | .pla => [0x68]
  | .adcImm m => encode1 0x69 m
  | .rorAcc => [0x6A]
  | .arrImm m => encode1 0x6B m
  | .jmpInd ptr => encode2 0x6C ptr
  | .adcAbs addr => encode2 0x6D addr
  | .rorAbs addr => encode2 0x6E addr
  | .rraAbs addr => encode2 0x6F addr
  | .bvs off => encode1 0x70 off
  | .adcIndY zp => encode1 0x71 zp
  | .rraIndY zp => encode1 0x73 zp
  | .adcZpX zp => encode1 0x75 zp
  | .rorZpX zp => encode1 0x76 zp
  | .rraZpX zp => encode1 0x77 zp
  | .sei => [0x78]
  | .adcAbsY addr => encode2 0x79 addr
  | .rraAbsY addr => encode2 0x7B addr
  | .adcAbsX addr => encode2 0x7D addr
  | .rorAbsX addr => encode2 0x7E addr
  | .rraAbsX addr => encode2 0x7F addr
  | .nopImm op m => encode1 op m
  | .staIndX zp => encode1 0x81 zp
  | .saxIndX zp => encode1 0x83 zp
  | .styZp zp => encode1 0x84 zp
  | .staZp zp => encode1 0x85 zp
  | .stxZp zp => encode1 0x86 zp
  | .saxZp zp => encode1 0x87 zp
  | .dey => [0x88]
  | .txa => [0x8A]
  | .aneImm m => encode1 0x8B m
  | .styAbs addr => encode2 0x8C addr
  | .staAbs addr => encode2 0x8D addr
  | .stxAbs addr => encode2 0x8E addr
  | .saxAbs addr => encode2 0x8F addr
  | .bcc off => encode1 0x90 off
  | .staIndY zp => encode1 0x91 zp
  | .shaIndY zp => encode1 0x93 zp
  | .styZpX zp => encode1 0x94 zp
  | .staZpX zp => encode1 0x95 zp
  | .stxZpY zp => encode1 0x96 zp
  | .saxZpY zp => encode1 0x97 zp
  | .tya => [0x98]
  | .staAbsY addr => encode2 0x99 addr
  | .txs => [0x9A]
  | .tasAbsY addr => encode2 0x9B addr
  | .shyAbsX addr => encode2 0x9C addr
  | .staAbsX addr => encode2 0x9D addr
  | .shxAbsY addr => encode2 0x9E addr
  | .shaAbsY addr => encode2 0x9F addr
  | .ldyImm m => encode1 0xA0 m
  | .ldaIndX zp => encode1 0xA1 zp
  | .ldxImm m => encode1 0xA2 m
  | .laxIndX zp => encode1 0xA3 zp
  | .ldyZp zp => encode1 0xA4 zp
  | .ldaZp zp => encode1 0xA5 zp
  | .ldxZp zp => encode1 0xA6 zp
  | .laxZp zp => encode1 0xA7 zp
  | .tay => [0xA8]
  | .ldaImm m => encode1 0xA9 m
  | .tax => [0xAA]
  | .lxaImm m => encode1 0xAB m
  | .ldyAbs addr => encode2 0xAC addr
  | .ldaAbs addr => encode2 0xAD addr
  | .ldxAbs addr => encode2 0xAE addr
  | .laxAbs addr => encode2 0xAF addr
  | .bcs off => encode1 0xB0 off
  | .ldaIndY zp => encode1 0xB1 zp
  | .laxIndY zp => encode1 0xB3 zp
  | .ldyZpX zp => encode1 0xB4 zp
  | .ldaZpX zp => encode1 0xB5 zp
  | .ldxZpY zp => encode1 0xB6 zp
  | .laxZpY zp => encode1 0xB7 zp
  | .clv => [0xB8]
  | .ldaAbsY addr => encode2 0xB9 addr
  | .tsx => [0xBA]
  | .lasAbsY addr => encode2 0xBB addr
  | .ldyAbsX addr => encode2 0xBC addr
  | .ldaAbsX addr => encode2 0xBD addr
  | .ldxAbsY addr => encode2 0xBE addr
  | .laxAbsY addr => encode2 0xBF addr
  | .cpyImm m => encode1 0xC0 m
  | .cmpIndX zp => encode1 0xC1 zp
  | .dcpIndX zp => encode1 0xC3 zp
  | .cpyZp zp => encode1 0xC4 zp
  | .cmpZp zp => encode1 0xC5 zp
  | .decZp zp => encode1 0xC6 zp
  | .dcpZp zp => encode1 0xC7 zp
  | .iny => [0xC8]
  | .cmpImm m => encode1 0xC9 m
  | .dex => [0xCA]
  | .sbxImm m => encode1 0xCB m
  | .cpyAbs addr => encode2 0xCC addr
  | .cmpAbs addr => encode2 0xCD addr
  | .decAbs addr => encode2 0xCE addr
  | .dcpAbs addr => encode2 0xCF addr
  | .bne off => encode1 0xD0 off
  | .cmpIndY zp => encode1 0xD1 zp
  | .dcpIndY zp => encode1 0xD3 zp
  | .cmpZpX zp => encode1 0xD5 zp
  | .decZpX zp => encode1 0xD6 zp
  | .dcpZpX zp => encode1 0xD7 zp
  | .cld => [0xD8]
  | .cmpAbsY addr => encode2 0xD9 addr
  | .dcpAbsY addr => encode2 0xDB addr
  | .cmpAbsX addr => encode2 0xDD addr
  | .decAbsX addr => encode2 0xDE addr
  | .dcpAbsX addr => encode2 0xDF addr
  | .cpxImm m => encode1 0xE0 m
  | .sbcIndX zp => encode1 0xE1 zp
  | .iscIndX zp => encode1 0xE3 zp
  | .cpxZp zp => encode1 0xE4 zp
  | .sbcZp zp => encode1 0xE5 zp
  | .incZp zp => encode1 0xE6 zp
  | .iscZp zp => encode1 0xE7 zp
  | .inx => [0xE8]
  | .sbcImm m => encode1 0xE9 m
  | .nop => [0xEA]
  | .usbcImm m => encode1 0xEB m
  | .cpxAbs addr => encode2 0xEC addr
  | .sbcAbs addr => encode2 0xED addr
  | .incAbs addr => encode2 0xEE addr
  | .iscAbs addr => encode2 0xEF addr
  | .beq off => encode1 0xF0 off
  | .sbcIndY zp => encode1 0xF1 zp
  | .iscIndY zp => encode1 0xF3 zp
  | .sbcZpX zp => encode1 0xF5 zp
  | .incZpX zp => encode1 0xF6 zp
  | .iscZpX zp => encode1 0xF7 zp
  | .sed => [0xF8]
  | .sbcAbsY addr => encode2 0xF9 addr
  | .iscAbsY addr => encode2 0xFB addr
  | .sbcAbsX addr => encode2 0xFD addr
  | .incAbsX addr => encode2 0xFE addr
  | .iscAbsX addr => encode2 0xFF addr

/-! What the table says of an instruction. -/

/-- The opcode byte. -/
def Instr.opcode (i : Instr) : Byte := (encode i).getD 0 0

/-- The first operand byte, `b1` of R69 (0 where the instruction has none). -/
def Instr.b1 (i : Instr) : Byte := (encode i).getD 1 0

/-- The second operand byte, `b2` of R69 (0 where the instruction has none). -/
def Instr.b2 (i : Instr) : Byte := (encode i).getD 2 0

/-- The instruction's entry in the core's table. -/
def Instr.row? (i : Instr) : Option Row := opcodeTable i.opcode

/-- Whether the instruction's table entry names mnemonic `m`. -/
def Instr.hasMnemonic (i : Instr) (m : Mnemonic) : Bool := i.row?.map (·.mnemonic) == some m

/-- The instruction's addressing mode (the table is total, so the default is never taken). -/
def Instr.mode (i : Instr) : Mode := (i.row?.map (·.mode)).getD .implied

/-- The instruction's access class (the table is total, so the default is never taken). -/
def Instr.cls (i : Instr) : AccessClass := (i.row?.map (·.cls)).getD .halt

/-- The instruction's length in bytes. -/
def Instr.length (i : Instr) : Nat := (encode i).length

/-! The host's numbering of a table row's bits. -/

/-- Byte `k` of a number whose least significant byte comes first. -/
def byteOf (w k : Nat) : Byte := BitVec.ofNat 8 (w / 2 ^ (8 * k))

/-- The three bytes, in address order, of the instruction whose bits are `w`, bit 0 the least significant bit of the first
byte; every bit above `nbits` is 0. Three bytes are the longest instruction (R66). -/
def tableWordBytes (nbits w : Nat) : List Byte :=
  let v := w % 2 ^ nbits
  [byteOf v 0, byteOf v 1, byteOf v 2]

/-- The instruction `decode` reads from the instruction whose bits are `w`. -/
def decodeTableWord (nbits w : Nat) : Option Instr :=
  match decode (tableWordBytes nbits w) with
  | .ok (i, _) => some i
  | .error _ => none

end Sys2Proof
end

