-- ==== Sys2Proof/Machine/State.lean ====
section
/-! DEFINITION. The machine's state, all of it plain data: the registers (R21 to R38), the cycle engine's hidden state (R39),
the interrupt latches (R40), the counters (R41), the frozen fault (R222, R242), and behind the bus the plain RAM of R50 with the
record of the accesses the core has made on it. -/

namespace Sys2Proof.Machine

/-- The phases of the cycle engine (R39, R192). -/
inductive Phase where
  | idle | fetching | resolvingAddress | executing | handlingInterrupt | halted
deriving DecidableEq, Repr

/-- The latches of a sequence in flight (R39): the opcode byte, the operand bytes, the pointer, the uncorrected and corrected
effective addresses (R92), the page-crossed bit (R91), the data byte read (also the low byte of a pulled or vector address),
the branch target, and the vector address of an interrupt sequence. With nothing in flight every latch is 0
(DESIGN CHOICE, log entry 7, safe). -/
structure Latches where
  opcode : Byte := 0
  b1 : Byte := 0
  b2 : Byte := 0
  ptr : Word := 0
  ea0 : Word := 0
  ea : Word := 0
  crossed : Bool := false
  data : Byte := 0
  target : Word := 0
  vector : Word := 0
deriving DecidableEq, Repr

/-- What InvalidOpcode records: the opcode byte and its address (R221, R222). -/
structure InvalidOpcode where
  op : Byte
  addr : Word
deriving DecidableEq, Repr

/-- The core without its bus: registers, engine state, interrupt latches, counters, frozen fault. -/
structure Cpu where
  /-- The accumulator (R21). -/
  a : Byte
  /-- Index register X (R21). -/
  x : Byte
  /-- Index register Y (R21). -/
  y : Byte
  /-- The stack pointer: the low byte of the next free stack location (R23). -/
  s : Byte
  /-- The program counter (R24). -/
  pc : Word
  /-- The status register: C Z I D B U V N from bit 0 up (R26). -/
  p : Byte
  /-- The engine's phase (R39, R192). -/
  phase : Phase
  /-- The micro-step index: how many cycles of the sequence in flight have been performed, so the next cycle's place in the
  sequence counted from 0; 0 with nothing in flight (R39, R197). -/
  micro : Nat
  /-- The latches of the sequence in flight (R39). -/
  latches : Latches
  /-- The NMI request latch (R40). -/
  nmi : Bool
  /-- The IRQ request latch (R40). -/
  irq : Bool
  /-- The cumulative cycle count, unbounded (R41). -/
  cycles : Nat
  /-- The cumulative instruction count, unbounded (R41). -/
  instructions : Nat
  /-- The fault that froze the core, if any (R222, R242). -/
  invalid : Option InvalidOpcode
deriving DecidableEq, Repr

/-- One bus cycle as the collaborator sees it (R46, R48): the address and the byte read or written. -/
inductive BusEvent where
  | read (addr : Word) (value : Byte)
  | write (addr : Word) (value : Byte)
deriving DecidableEq, Repr

/-- The plain RAM behind the bus (R50) with every access made on it, newest first. The record is the model's own field
(DESIGN CHOICE, log entry 3, safe): no instruction reads it. -/
structure Ram where
  mem : List Host.Cell
  log : List BusEvent
deriving DecidableEq, Repr

/-- The machine: the core and the RAM behind its bus. -/
structure State where
  cpu : Cpu
  bus : Ram
deriving DecidableEq, Repr

/-- Why the machine stops with a fault. -/
inductive Fault where
  /-- R222: cycle 1 of an instruction read an opcode the instruction table has no entry for; also raised again by every call
  made on the frozen state. Raised by the step and by `advance`. Safe: it is the fault the spec names. With the core's own table
  no opcode raises it (R77). -/
  | invalidOpcode (op : Byte) (addr : Word)
deriving DecidableEq, Repr

/-- Why the model refuses. -/
inductive Refusal where
  /-- An instruction that has no meaning yet; raised by `exec` only, and by no arm of this model. Safe. -/
  | notModelled (mnemonic : String)
  /-- R43, D14: a host register write while the engine is not at an instruction boundary. Raised by the host calls only. Safe:
  it is the refusal the spec names. -/
  | hostWriteInFlight
  /-- Raised by `advance` in a state no run reaches: a micro-step index past the end of the sequence in flight (DESIGN CHOICE, log entry 9).
  Safe: the model stops. -/
  | noSuchCycle
deriving DecidableEq, Repr

/-- Right after reset (R45, R242), with no byte of memory listed. The reset vector then reads as 0x0000, and the two vector
reads are the only bus accesses made (R241). -/
def State.reset : State where
  cpu :=
    { a := 0, x := 0, y := 0, s := 0xFF, pc := 0x0000, p := 0x20
      phase := .idle, micro := 0, latches := {}
      nmi := false, irq := false, cycles := 0, instructions := 0, invalid := none }
  bus := { mem := [], log := [.read 0xFFFD 0x00, .read 0xFFFC 0x00] }

end Sys2Proof.Machine
end

