-- ==== Sys2Proof/Machine/Flags.lean ====
section
/-! DEFINITION. The status register's flags (R26 to R37), whole-byte access to P (R27, R28), and the ALU: add, subtract and
compare in binary and decimal (R105 to R109), shifts and rotates (R122). -/

namespace Sys2Proof.Machine

/-- The flags of P (R26). -/
inductive Flag where
  | c | z | i | d | b | u | v | n
deriving DecidableEq, Repr

/-- The flag's bit number in P (R26). -/
def Flag.bit : Flag → Nat
  | .c => 0 | .z => 1 | .i => 2 | .d => 3 | .b => 4 | .u => 5 | .v => 6 | .n => 7

/-- The value of one flag of a status byte. -/
def getFlag (p : Byte) (f : Flag) : Bool := p.getLsbD f.bit

/-- A status byte with one flag set to 1 when `on` holds and to 0 otherwise (R29). -/
def putFlag (p : Byte) (f : Flag) (on : Bool) : Byte :=
  if on then p ||| (1#8 <<< f.bit) else p &&& ~~~(1#8 <<< f.bit)

/-- The value of one flag. -/
def Cpu.flag (f : Flag) (c : Cpu) : Bool := getFlag c.p f

/-- `P.f <- b` (R29). -/
def Cpu.setFlag (f : Flag) (on : Bool) (c : Cpu) : Cpu := { c with p := putFlag c.p f on }

/-- `setNZ(v)` (R15): Z says that v is 0, N is bit 7 of v. -/
def Cpu.setNZ (v : Byte) (c : Cpu) : Cpu := (c.setFlag .z (v == 0)).setFlag .n (v.getLsbD 7)

/-- The status byte that `SetP(v)` leaves (R27): bit 5 forced to 1, bit 4 kept, the rest from `v`. -/
def setPValue (old v : Byte) : Byte := (v &&& 0xCF) ||| (old &&& 0x10) ||| 0x20

/-- `SetP(v)`, the whole-byte write of P used by PLP and RTI (R27). -/
def Cpu.setP (v : Byte) (c : Cpu) : Cpu := { c with p := setPValue c.p v }

/-- What PHP and BRK push: `GetP() | 0b00110000` (R28). -/
def Cpu.statusForBreak (c : Cpu) : Byte := c.p ||| 0x30

/-- What the NMI and IRQ sequences push: `(GetP() & 0b11101111) | 0b00100000` (R28). -/
def Cpu.statusForInterrupt (c : Cpu) : Byte := (c.p &&& 0xEF) ||| 0x20

/-! ## The ALU -/

/-- A result byte with the four arithmetic flags. -/
structure AluResult where
  value : Byte
  c : Bool
  v : Bool
  z : Bool
  n : Bool
deriving DecidableEq, Repr

/-- `AddBin(a, m, c)` (R105). -/
def addBin (a m : Byte) (c : Bool) : AluResult :=
  let s := a.toNat + m.toNat + c.toNat
  let r := BitVec.ofNat 8 s
  { value := r
    c := decide (s > 0xFF)
    v := ((a ^^^ r) &&& (m ^^^ r)) &&& 0x80 != 0
    z := r == 0
    n := r.getLsbD 7 }

/-- `SubBin(a, m, c)` (R106): `a + ~m + c`. -/
def subBin (a m : Byte) (c : Bool) : AluResult :=
  let s := a.toNat + (~~~m).toNat + c.toNat
  let r := BitVec.ofNat 8 s
  { value := r
    c := decide (s > 0xFF)
    v := ((a ^^^ r) &&& (a ^^^ m)) &&& 0x80 != 0
    z := r == 0
    n := r.getLsbD 7 }

/-- The low nibble, `n & 0x0F`. -/
def nibLo (n : Nat) : Nat := n % 16

/-- The high nibble in place, `n & 0xF0` for a byte `n`. -/
def nibHi (n : Nat) : Nat := n / 16 % 16 * 16

/-- The intermediate of R107 before the high-nibble correction: both nibbles added, the low one corrected. -/
def addDecLow (a m : Byte) (c : Bool) : Nat :=
  let t := nibLo a.toNat + nibLo m.toNat + c.toNat
  let t := if t > 0x09 then t + 0x06 else t
  if t ≤ 0x0F then nibLo t + nibHi a.toNat + nibHi m.toNat
  else nibLo t + nibHi a.toNat + nibHi m.toNat + 0x10

/-- `AddDec(a, m, c)` (R107). `t & 0x1F0` and `t & 0xFF0` are written with division and remainder. -/
def addDec (a m : Byte) (c : Bool) : AluResult :=
  let t := addDecLow a m c
  let tb := BitVec.ofNat 8 t
  let t' := if t / 16 % 32 * 16 > 0x90 then t + 0x60 else t
  { value := BitVec.ofNat 8 t'
    c := decide (t' / 16 % 256 * 16 > 0xF0)
    v := ((a ^^^ tb) &&& 0x80 != 0) && ((a ^^^ m) &&& 0x80 == 0)
    z := BitVec.ofNat 8 (a.toNat + m.toNat + c.toNat) == 0
    n := tb.getLsbD 7 }

/-- The result of `SubDec` as an unbounded integer (R108). -/
def subDecInt (a m : Byte) (c : Bool) : Int :=
  let lo : Int := (nibLo a.toNat : Int) - nibLo m.toNat - (1 - c.toNat)
  let hi : Int := (nibHi a.toNat : Int) - nibHi m.toNat
  let r := if lo < 0 then (hi - 0x10) + (lo - 6) % 16 else hi + lo
  if r < 0 then r - 0x60 else r

/-- `SubDec(a, m, c)` (R108): the decimal result with the flags of the binary subtraction. -/
def subDec (a m : Byte) (c : Bool) : AluResult := { subBin a m c with value := BitVec.ofInt 8 (subDecInt a m c) }

/-- Write an ALU result's flags C, V, Z and N. -/
def Cpu.setAluFlags (r : AluResult) (c : Cpu) : Cpu :=
  (((c.setFlag .c r.c).setFlag .v r.v).setFlag .z r.z).setFlag .n r.n

/-- `Compare(r, m)` (R109): C, Z and N, binary whatever D says; V and D stay. -/
def Cpu.compare (r m : Byte) (c : Cpu) : Cpu :=
  ((c.setFlag .c (decide (m.toNat ≤ r.toNat))).setFlag .z (r == m)).setFlag .n ((r - m).getLsbD 7)

/-! ## Shifts and rotates (R122): the result byte and the carry out. -/

/-- `Asl(v)`. -/
def asl (v : Byte) : Byte × Bool := (v <<< 1, v.getLsbD 7)

/-- `Lsr(v)`. -/
def lsr (v : Byte) : Byte × Bool := (v >>> 1, v.getLsbD 0)

/-- `Rol(v, c)`. -/
def rol (v : Byte) (c : Bool) : Byte × Bool := ((v <<< 1) ||| (if c then 0x01 else 0), v.getLsbD 7)

/-- `Ror(v, c)`. -/
def ror (v : Byte) (c : Bool) : Byte × Bool := ((v >>> 1) ||| (if c then 0x80 else 0), v.getLsbD 0)

end Sys2Proof.Machine
end

