-- ==== Sys2Proof/Machine/Memory.lean ====
section
/-! DEFINITION. Memory as data: the 64 KiB address space (R47) as a list of (address, byte) pairs in one canonical form, its
reads and writes, and the bus contract (R46, R48) that the core reaches it through. -/

namespace Sys2Proof.Machine

/-- Memory: addresses strictly rising, no entry equal to what an unlisted address reads as. -/
abbrev Memory := List Host.Cell

/-- The byte at key `k`; an unlisted key reads as `Config.unlistedByte`. -/
def memGet (k : Nat) : Memory → Byte
  | [] => Config.unlistedByte
  | (j, v) :: rest => if j = k then v else memGet k rest

/-- Put the cell `(k, v)` in front of `rest`, unless its byte is what an unlisted address reads as. -/
def memCons (k : Nat) (v : Byte) (rest : Memory) : Memory :=
  if v = Config.unlistedByte then rest else (k, v) :: rest

/-- The memory with byte `v` at key `k`, in canonical form again. -/
def memSet (k : Nat) (v : Byte) : Memory → Memory
  | [] => memCons k v []
  | (j, w) :: rest =>
    if j < k then (j, w) :: memSet k v rest
    else if j = k then memCons k v rest
    else memCons k v ((j, w) :: rest)

/-- The canonical form of the cells above key `lo`, all keys below 65536. -/
def memWfFrom (lo : Nat) : Memory → Bool
  | [] => true
  | (k, v) :: rest => decide (lo ≤ k) && decide (k < 65536) && decide (v ≠ Config.unlistedByte) && memWfFrom (k + 1) rest

/-- Memory is in canonical form. -/
def Memory.wf (m : Memory) : Bool := memWfFrom 0 m

/-- The byte at an address (R47, R50). -/
def memRead (m : Memory) (a : Word) : Byte := memGet a.toNat m

/-- Memory with `v` stored at an address (R50). -/
def memWrite (m : Memory) (a : Word) (v : Byte) : Memory := memSet a.toNat v m

/-- `MemRead16` (R51): low byte at `a`, high byte at `a + 1` modulo 65536. -/
def memRead16 (m : Memory) (a : Word) : Word := mkWord (memRead m (a + 1)) (memRead m a)

/-- `MemWrite16` (R52): low byte at `a`, high byte at `a + 1` modulo 65536. No instruction uses it. -/
def memWrite16 (m : Memory) (a : Word) (w : Word) : Memory := memWrite (memWrite m a (loByte w)) (a + 1) (hiByte w)

/-! The bus contract (R46, R48, D20). -/

/-- A bus collaborator with state of type `β`: a read may change that state, and need not return the byte last written. -/
structure Bus (β : Type) where
  peek : β → Word → Byte × β
  poke : β → Word → Byte → β

/-- Plain RAM (R50): `peek(m, a) = (m[a], m)`, `poke(m, a, v) = (m[a := v])`. -/
def plainRam : Bus Memory where
  peek m a := (memRead m a, m)
  poke m a v := memWrite m a v

/-- Any collaborator with every access made on it recorded, newest first. -/
def Bus.recorded {β : Type} (B : Bus β) : Bus (β × List BusEvent) where
  peek b a := ((B.peek b.1 a).1, (B.peek b.1 a).2, .read a (B.peek b.1 a).1 :: b.2)
  poke b a v := (B.poke b.1 a v, .write a v :: b.2)

/-- A read of the machine's own RAM. -/
def Ram.read (r : Ram) (a : Word) : Byte × Ram :=
  let v := memRead r.mem a
  (v, { r with log := .read a v :: r.log })

/-- A write of the machine's own RAM. -/
def Ram.write (r : Ram) (a : Word) (v : Byte) : Ram :=
  { mem := memWrite r.mem a v, log := .write a v :: r.log }

/-- The machine's own collaborator: recorded plain RAM. -/
def ramBus : Bus Ram where
  peek := Ram.read
  poke := Ram.write

end Sys2Proof.Machine
end

