-- ==== Sys2Proof/Machine/Operands.lean ====
section
/-! DEFINITION. The address resolver (40_addressing.md): the address arithmetic of every mode, and `resolve`, which gives for a
mode, the operand bytes and a state what R80 says the resolver produces. The bus cycles a mode spends are in
Machine/Access.lean. -/

namespace Sys2Proof.Machine

/-- The index registers. -/
inductive Index where
  | x | y
deriving DecidableEq, Repr

/-- The value of an index register. -/
def Cpu.index (c : Cpu) : Index → Byte
  | .x => c.x
  | .y => c.y

/-- A zero-page address with its index added, wrapping within page 0 (R87, R88). -/
def zpIndexed (b i : Byte) : Word := zeroPage (b + i)

/-- `EA = u16(base + idx)` (R90, R96). -/
def baseIndexed (base : Word) (i : Byte) : Word := base + zeroPage i

/-- The uncorrected address `EA0 = hi(base):u8(lo(base) + idx)` (R92). -/
def uncorrected (base : Word) (i : Byte) : Word := mkWord (hiByte base) (loByte base + i)

/-- `crossed`: the low byte's unbounded sum exceeds 0xFF (R91). -/
def pageCrossed (base : Word) (i : Byte) : Bool := decide ((loByte base).toNat + i.toNat > 0xFF)

/-- The address of a pointer's high byte when it stays in the low byte's page (R94). -/
def samePageNext (ptr : Word) : Word := mkWord (hiByte ptr) (loByte ptr + 1)

/-- The branch target `u16(PCnext + sext_8(b1))` (R85). -/
def branchTarget (pcNext : Word) (off : Byte) : Word := pcNext + signExtend off

/-- Two addresses in the same page. -/
def samePage (a b : Word) : Bool := hiByte a == hiByte b

/-- The stack address `0x0100 | S` (R23). -/
def stackAddr (s : Byte) : Word := mkWord Config.stackPage s

/-- The value SHA, SHX, SHY and TAS store: `reg & u8(H + 1)`, with H the high byte of the address before indexing (R185). -/
def shValue (reg : Byte) (ea0 : Word) : Byte := reg &&& (hiByte ea0 + 1)

/-- The address SHA, SHX, SHY and TAS write: the high byte is replaced by the value on a page cross (R185). -/
def shAddr (value : Byte) (ea : Word) (crossed : Bool) : Word := if crossed then mkWord value (loByte ea) else ea

/-- What the resolver produces (R80): nothing for implied, the accumulator, an immediate value, or an address. For an address,
`ea0` is the uncorrected address (R92), equal to `ea` where no index is added to a base. -/
inductive Resolved where
  | nothing
  | acc
  | imm (value : Byte)
  | addr (ea0 ea : Word) (crossed : Bool)
deriving DecidableEq, Repr

/-- An address that takes no index on a 16-bit base: never crossed (R92). -/
def Resolved.direct (ea : Word) : Resolved := .addr ea ea false

/-- An indexed 16-bit base (R90 to R92). -/
def Resolved.indexed (base : Word) (i : Byte) : Resolved :=
  .addr (uncorrected base i) (baseIndexed base i) (pageCrossed base i)

/-- The 16-bit pointer in page 0 at `z`, its high byte at `u8(z + 1)` (R95, R96). -/
def zpPointer (m : Memory) (z : Byte) : Word := mkWord (memRead m (zeroPage (z + 1))) (memRead m (zeroPage z))

/-- The pointer an indirect JMP follows, its high byte read within the pointer's page (R94). -/
def jmpPointer (m : Memory) (ptr : Word) : Word := mkWord (memRead m (samePageNext ptr)) (memRead m ptr)

/-- The resolver (R80, R82 to R96) for the instruction at PC with operand bytes `b1`, `b2`. A relative operand resolves to its
target, an indirect one to the pointer's target (R85, R94). -/
def resolve (mode : Mode) (b1 b2 : Byte) (s : State) : Resolved :=
  match mode with
  | .implied => .nothing
  | .accumulator => .acc
  | .immediate => .imm b1
  | .relative => .direct (branchTarget (s.cpu.pc + 2) b1)
  | .zeropage => .direct (zeroPage b1)
  | .zeropageX => .direct (zpIndexed b1 s.cpu.x)
  | .zeropageY => .direct (zpIndexed b1 s.cpu.y)
  | .absolute => .direct (mkWord b2 b1)
  | .absoluteX => .indexed (mkWord b2 b1) s.cpu.x
  | .absoluteY => .indexed (mkWord b2 b1) s.cpu.y
  | .indirect => .direct (jmpPointer s.bus.mem (mkWord b2 b1))
  | .indirectX => .direct (zpPointer s.bus.mem (b1 + s.cpu.x))
  | .indirectY => .indexed (zpPointer s.bus.mem b1) s.cpu.y

/-- `ReadOperand()` (R81): the byte the operand stands for. -/
def Resolved.value (r : Resolved) (s : State) : Byte :=
  match r with
  | .nothing => 0
  | .acc => s.cpu.a
  | .imm v => v
  | .addr _ ea _ => memRead s.bus.mem ea

/-- The effective address, where the resolver gives one. -/
def Resolved.ea? : Resolved → Option Word
  | .addr _ ea _ => some ea
  | _ => none

/-- Whether indexing crossed a page (R91). -/
def Resolved.crossed : Resolved → Bool
  | .addr _ _ c => c
  | _ => false

/-- What the resolver produces for an instruction at PC. -/
def operandOf (i : Instr) (s : State) : Resolved := resolve i.mode i.b1 i.b2 s

end Sys2Proof.Machine
end

