-- ==== Sys2Proof/Machine/Ops.lean ====
section
/-! DEFINITION. The machine's shared operations: one bus cycle (R46, R193), a fetch (R198), the stack primitives (R58), the end
of an instruction (R196), the one entry to a handler that BRK, NMI and IRQ share (R216, R217, R233) with the return from it
(R215), and reset (R241). -/

namespace Sys2Proof.Machine

/-! ## Bus cycles -/

/-- Count one cycle (R193). -/
def Cpu.tick (c : Cpu) : Cpu := { c with cycles := c.cycles + 1 }

/-- Change the core alone. -/
def State.mapCpu (f : Cpu → Cpu) (s : State) : State := { s with cpu := f s.cpu }

/-- `MemRead(a, 1)`: one bus read cycle (R16, R46, R193). -/
def State.busRead (a : Word) (s : State) : Byte × State :=
  ((s.bus.read a).1, { cpu := s.cpu.tick, bus := (s.bus.read a).2 })

/-- `MemWrite(a, 1, v)`: one bus write cycle (R16, R46, R193). -/
def State.busWrite (a : Word) (v : Byte) (s : State) : State := { cpu := s.cpu.tick, bus := s.bus.write a v }

/-- A bus read whose value the core discards (R198: dummy). -/
def State.dummyRead (a : Word) (s : State) : State := (s.busRead a).2

/-- A bus read at PC that does not increment PC (R198, R200). -/
def State.dummyPc (s : State) : State := s.dummyRead s.cpu.pc

/-- `PC <- u16(PC + 1)`. -/
def Cpu.incPc (c : Cpu) : Cpu := { c with pc := c.pc + 1 }

/-- `PC <- target` (R16). -/
def Cpu.jump (target : Word) (c : Cpu) : Cpu := { c with pc := target }

/-- A fetch: a read at PC, then `PC <- u16(PC + 1)` (R198). -/
def State.fetch (s : State) : Byte × State := ((s.busRead s.cpu.pc).1, (s.busRead s.cpu.pc).2.mapCpu Cpu.incPc)

/-- A fetch of a byte the decoded instruction already holds. -/
def State.fetched (s : State) : State := s.fetch.2

/-- An instruction retires (R196). -/
def Cpu.retire (c : Cpu) : Cpu := { c with instructions := c.instructions + 1 }

/-- An instruction retires (R196). -/
def State.retire (s : State) : State := s.mapCpu Cpu.retire

/-! ## The stack (R23, R58) -/

/-- `S <- u8(S - 1)`. -/
def Cpu.decS (c : Cpu) : Cpu := { c with s := c.s - 1 }

/-- `S <- u8(S + 1)`. -/
def Cpu.incS (c : Cpu) : Cpu := { c with s := c.s + 1 }

/-- `Push(v)`: write, then decrement (R58). -/
def State.push (v : Byte) (s : State) : State := (s.busWrite (stackAddr s.cpu.s) v).mapCpu Cpu.decS

/-- `Pull()`: increment, then read (R58). -/
def State.pull (s : State) : Byte × State := (s.mapCpu Cpu.incS).busRead (stackAddr (s.cpu.s + 1))

/-- The discarded read of the stack slot at S that precedes a pull and JSR's pushes (R212 to R215). -/
def State.dummyStack (s : State) : State := s.dummyRead (stackAddr s.cpu.s)

/-! ## Taking an exception and returning from one -/

/-- Cycles 3 to 7 of BRK and of the interrupt sequence (R216, R217, R233): push PC high, PC low and the status the caller
composed, then read the vector's low byte and set I, then read its high byte and jump. D and B are not changed (D5). -/
def State.enterHandler (status : Byte) (vector : Word) (s : State) : State :=
  let s := s.push (hiByte s.cpu.pc)
  let s := s.push (loByte s.cpu.pc)
  let s := s.push status
  let (lo, s) := s.busRead vector
  let s := s.mapCpu (Cpu.setFlag .i true)
  let (hi, s) := s.busRead (vector + 1)
  s.mapCpu (Cpu.jump (mkWord hi lo))

/-- `InterruptSequence(v)` (R217, R233): two discarded reads at PC, then the entry with bit 4 of the pushed status 0. It is
not counted as an instruction (R41). -/
def State.interruptSequence (vector : Word) (s : State) : State :=
  (s.dummyPc.dummyPc).enterHandler s.cpu.statusForInterrupt vector

/-- `SetP(Pull()); PC <- pulled word` (R151, R215, R235): what RTI does after its discarded reads. -/
def State.returnFromHandler (s : State) : State :=
  let (p, s) := s.pull
  let s := s.mapCpu (Cpu.setP p)
  let (lo, s) := s.pull
  let (hi, s) := s.pull
  s.mapCpu (Cpu.jump (mkWord hi lo))

/-! ## Reset (R241, R242) -/

/-- The core's state after reset, with PC from the reset vector (R242). -/
def Cpu.afterReset (pc : Word) : Cpu :=
  { a := 0, x := 0, y := 0, s := 0xFF, pc := pc, p := 0x20
    phase := .idle, micro := 0, latches := {}
    nmi := false, irq := false, cycles := 0, instructions := 0, invalid := none }

/-- Reset on any collaborator (R241): two reads, low byte of the vector first; no cycle is counted and no memory written. -/
def resetOn {β : Type} (B : Bus β) (b : β) : Cpu × β :=
  let (lo, b) := B.peek b Config.resetVector
  let (hi, b) := B.peek b (Config.resetVector + 1)
  (Cpu.afterReset (mkWord hi lo), b)

/-- The host's reset of the machine, in any phase (R241). -/
def State.hostReset (s : State) : State :=
  let (c, b) := resetOn ramBus s.bus
  { cpu := c, bus := b }

end Sys2Proof.Machine
end

