-- ==== Sys2Proof/Machine/Access.lean ====
section
/-! DEFINITION. The bus cycles of every operand form and access class (48_cycle_engine.md, R199 to R209), as operations on the
state before the opcode fetch: each mode has its address cycles, each class its data cycles, and an instruction's meaning is one
of each around its own effect. The bytes fetched at PC are those the decoded instruction holds (DEDUCED, log entry 5). -/

namespace Sys2Proof.Machine

/-! ## Address cycles -/

/-- Where the address cycles of a mode ended: the uncorrected and corrected address (R92), whether indexing crossed a page
(R91), whether the mode indexes a 16-bit base, and the state. -/
structure Located where
  ea0 : Word
  ea : Word
  crossed : Bool
  indexed : Bool
  st : State
deriving DecidableEq, Repr

/-- A mode that takes no index on a 16-bit base. -/
def Located.direct (ea : Word) (s : State) : Located := ⟨ea, ea, false, false, s⟩

/-- A mode that indexes a 16-bit base (R90 to R92). -/
def Located.onBase (base : Word) (i : Byte) (s : State) : Located :=
  ⟨uncorrected base i, baseIndexed base i, pageCrossed base i, true, s⟩

/-- Zeropage: opcode, b1 (R202). -/
def locZeropage (b1 : Byte) (s : State) : Located := .direct (zeroPage b1) s.fetched.fetched

/-- Zeropage indexed: opcode, b1, a discarded read of the unindexed address (R203). -/
def locZeropageIndexed (i : Index) (b1 : Byte) (s : State) : Located :=
  let s := s.fetched.fetched
  .direct (zpIndexed b1 (s.cpu.index i)) (s.dummyRead (zeroPage b1))

/-- Absolute: opcode, b1, b2 (R204). -/
def locAbsolute (w : Word) (s : State) : Located := .direct w s.fetched.fetched.fetched

/-- Absolute indexed: opcode, b1, b2 (R205, R206). -/
def locAbsoluteIndexed (i : Index) (w : Word) (s : State) : Located :=
  let s := s.fetched.fetched.fetched
  .onBase w (s.cpu.index i) s

/-- Indirect_x: opcode, b1, a discarded read of b1, the pointer's two bytes within page 0 (R207, R95). -/
def locIndirectX (b1 : Byte) (s : State) : Located :=
  let s := s.fetched.fetched
  let p := b1 + s.cpu.x
  let s := s.dummyRead (zeroPage b1)
  let (lo, s) := s.busRead (zeroPage p)
  let (hi, s) := s.busRead (zeroPage (p + 1))
  .direct (mkWord hi lo) s

/-- Indirect_y: opcode, b1, the pointer's two bytes within page 0 (R208, R96). -/
def locIndirectY (b1 : Byte) (s : State) : Located :=
  let s := s.fetched.fetched
  let (lo, s) := s.busRead (zeroPage b1)
  let (hi, s) := s.busRead (zeroPage (b1 + 1))
  .onBase (mkWord hi lo) s.cpu.y s

/-! ## Data cycles -/

/-- Read class: one read at the uncorrected address, which is the data read unless a page was crossed; then one more at the
address (R202 to R205, R207, R208). The effect `f` takes the byte read and the core. -/
def readAt (f : Byte → Cpu → Cpu) (l : Located) : State :=
  let (v, s) := l.st.busRead l.ea0
  let (v, s) := if l.crossed then s.busRead l.ea else (v, s)
  (s.mapCpu (f v)).retire

/-- The uncorrected read that a write or read-modify-write makes, crossed or not, in a mode that indexes a base (R206, R208). -/
def Located.uncorrectedRead (l : Located) : State := if l.indexed then l.st.dummyRead l.ea0 else l.st

/-- Write class: the target is not read (R81, R102). -/
def writeAt (value : Cpu → Byte) (l : Located) : State :=
  let s := l.uncorrectedRead
  (s.busWrite l.ea (value s.cpu)).retire

/-- Read-modify-write class: read, write the unmodified byte back, write the result (R209); `f` gives the result and the core
with the flags and registers it leaves. -/
def modifyAt (f : Byte → Cpu → Byte × Cpu) (l : Located) : State :=
  let s := l.uncorrectedRead
  let (m, s) := s.busRead l.ea
  let s := s.busWrite l.ea m
  let (r, c) := f m s.cpu
  let s := { s with cpu := c }
  (s.busWrite l.ea r).retire

/-- The stores SHA, SHX, SHY and TAS (R185): `regs` gives the register term and the core it leaves. -/
def unstableWriteAt (regs : Cpu → Byte × Cpu) (l : Located) : State :=
  let s := l.uncorrectedRead
  let (reg, c) := regs s.cpu
  let s := { s with cpu := c }
  let value := shValue reg l.ea0
  (s.busWrite (shAddr value l.ea l.crossed) value).retire

/-! ## Instructions without a memory operand -/

/-- Immediate mode: opcode, b1 (R201). -/
def immediate (f : Byte → Cpu → Cpu) (m : Byte) (s : State) : State := (s.fetched.fetched.mapCpu (f m)).retire

/-- The two-cycle implied and accumulator instructions: opcode, a discarded read at PC (R200). -/
def implied (f : Cpu → Cpu) (s : State) : State := (s.fetched.dummyPc.mapCpu f).retire

/-- A read-modify-write effect on the accumulator (R123). -/
def onAccumulator (f : Byte → Cpu → Byte × Cpu) (c : Cpu) : Cpu :=
  let (r, c) := f c.a c
  { c with a := r }

end Sys2Proof.Machine
end

