-- ==== Sys2Proof/Machine/LoadStore.lean ====
section
/-! DEFINITION. Loads and stores (41_load_store.md): LDA, LDX, LDY, STA, STX, STY. -/

namespace Sys2Proof.Machine

/-- What one step of the machine answers. -/
abbrev Result := Host.Outcome State Fault Refusal

/-! ## Effects -/

/-- `A <- M; setNZ(A)` (R99). -/
def Cpu.opLda (m : Byte) (c : Cpu) : Cpu := ({ c with a := m } : Cpu).setNZ m

/-- `X <- M; setNZ(X)` (R100). -/
def Cpu.opLdx (m : Byte) (c : Cpu) : Cpu := ({ c with x := m } : Cpu).setNZ m

/-- `Y <- M; setNZ(Y)` (R101). -/
def Cpu.opLdy (m : Byte) (c : Cpu) : Cpu := ({ c with y := m } : Cpu).setNZ m

/-- The byte STA stores (R102). -/
def Cpu.opSta (c : Cpu) : Byte := c.a

/-- The byte STX stores (R103). -/
def Cpu.opStx (c : Cpu) : Byte := c.x

/-- The byte STY stores (R104). -/
def Cpu.opSty (c : Cpu) : Byte := c.y

/-! ## The instructions -/

/-- STA ($nn,X), 0x81 (R102). -/
def execStaIndX (zp : Byte) (s : State) : Result := .next (writeAt Cpu.opSta (locIndirectX zp s))

/-- STY $nn, 0x84 (R104). -/
def execStyZp (zp : Byte) (s : State) : Result := .next (writeAt Cpu.opSty (locZeropage zp s))

/-- STA $nn, 0x85 (R102). -/
def execStaZp (zp : Byte) (s : State) : Result := .next (writeAt Cpu.opSta (locZeropage zp s))

/-- STX $nn, 0x86 (R103). -/
def execStxZp (zp : Byte) (s : State) : Result := .next (writeAt Cpu.opStx (locZeropage zp s))

/-- STY $nnnn, 0x8C (R104). -/
def execStyAbs (addr : Word) (s : State) : Result := .next (writeAt Cpu.opSty (locAbsolute addr s))

/-- STA $nnnn, 0x8D (R102). -/
def execStaAbs (addr : Word) (s : State) : Result := .next (writeAt Cpu.opSta (locAbsolute addr s))

/-- STX $nnnn, 0x8E (R103). -/
def execStxAbs (addr : Word) (s : State) : Result := .next (writeAt Cpu.opStx (locAbsolute addr s))

/-- STA ($nn),Y, 0x91 (R102). -/
def execStaIndY (zp : Byte) (s : State) : Result := .next (writeAt Cpu.opSta (locIndirectY zp s))

/-- STY $nn,X, 0x94 (R104). -/
def execStyZpX (zp : Byte) (s : State) : Result := .next (writeAt Cpu.opSty (locZeropageIndexed .x zp s))

/-- STA $nn,X, 0x95 (R102). -/
def execStaZpX (zp : Byte) (s : State) : Result := .next (writeAt Cpu.opSta (locZeropageIndexed .x zp s))

/-- STX $nn,Y, 0x96 (R103). -/
def execStxZpY (zp : Byte) (s : State) : Result := .next (writeAt Cpu.opStx (locZeropageIndexed .y zp s))

/-- STA $nnnn,Y, 0x99 (R102). -/
def execStaAbsY (addr : Word) (s : State) : Result := .next (writeAt Cpu.opSta (locAbsoluteIndexed .y addr s))

/-- STA $nnnn,X, 0x9D (R102). -/
def execStaAbsX (addr : Word) (s : State) : Result := .next (writeAt Cpu.opSta (locAbsoluteIndexed .x addr s))

/-- LDY #$nn, 0xA0 (R101). -/
def execLdyImm (m : Byte) (s : State) : Result := .next (immediate Cpu.opLdy m s)

/-- LDA ($nn,X), 0xA1 (R99). -/
def execLdaIndX (zp : Byte) (s : State) : Result := .next (readAt Cpu.opLda (locIndirectX zp s))

/-- LDX #$nn, 0xA2 (R100). -/
def execLdxImm (m : Byte) (s : State) : Result := .next (immediate Cpu.opLdx m s)

/-- LDY $nn, 0xA4 (R101). -/
def execLdyZp (zp : Byte) (s : State) : Result := .next (readAt Cpu.opLdy (locZeropage zp s))

/-- LDA $nn, 0xA5 (R99). -/
def execLdaZp (zp : Byte) (s : State) : Result := .next (readAt Cpu.opLda (locZeropage zp s))

/-- LDX $nn, 0xA6 (R100). -/
def execLdxZp (zp : Byte) (s : State) : Result := .next (readAt Cpu.opLdx (locZeropage zp s))

/-- LDA #$nn, 0xA9 (R99). -/
def execLdaImm (m : Byte) (s : State) : Result := .next (immediate Cpu.opLda m s)

/-- LDY $nnnn, 0xAC (R101). -/
def execLdyAbs (addr : Word) (s : State) : Result := .next (readAt Cpu.opLdy (locAbsolute addr s))

/-- LDA $nnnn, 0xAD (R99). -/
def execLdaAbs (addr : Word) (s : State) : Result := .next (readAt Cpu.opLda (locAbsolute addr s))

/-- LDX $nnnn, 0xAE (R100). -/
def execLdxAbs (addr : Word) (s : State) : Result := .next (readAt Cpu.opLdx (locAbsolute addr s))

/-- LDA ($nn),Y, 0xB1 (R99). -/
def execLdaIndY (zp : Byte) (s : State) : Result := .next (readAt Cpu.opLda (locIndirectY zp s))

/-- LDY $nn,X, 0xB4 (R101). -/
def execLdyZpX (zp : Byte) (s : State) : Result := .next (readAt Cpu.opLdy (locZeropageIndexed .x zp s))

/-- LDA $nn,X, 0xB5 (R99). -/
def execLdaZpX (zp : Byte) (s : State) : Result := .next (readAt Cpu.opLda (locZeropageIndexed .x zp s))

/-- LDX $nn,Y, 0xB6 (R100). -/
def execLdxZpY (zp : Byte) (s : State) : Result := .next (readAt Cpu.opLdx (locZeropageIndexed .y zp s))

/-- LDA $nnnn,Y, 0xB9 (R99). -/
def execLdaAbsY (addr : Word) (s : State) : Result := .next (readAt Cpu.opLda (locAbsoluteIndexed .y addr s))

/-- LDY $nnnn,X, 0xBC (R101). -/
def execLdyAbsX (addr : Word) (s : State) : Result := .next (readAt Cpu.opLdy (locAbsoluteIndexed .x addr s))

/-- LDA $nnnn,X, 0xBD (R99). -/
def execLdaAbsX (addr : Word) (s : State) : Result := .next (readAt Cpu.opLda (locAbsoluteIndexed .x addr s))

/-- LDX $nnnn,Y, 0xBE (R100). -/
def execLdxAbsY (addr : Word) (s : State) : Result := .next (readAt Cpu.opLdx (locAbsoluteIndexed .y addr s))

end Sys2Proof.Machine
end

