-- ==== Sys2Proof/Machine/Arithmetic.lean ====
section
/-! DEFINITION. Arithmetic (42_arithmetic.md): ADC, SBC, CMP, CPX, CPY, INC, DEC, INX, INY, DEX, DEY. -/

namespace Sys2Proof.Machine

/-! ## Effects -/

/-- `(A, C, V, Z, N) <- r`. -/
def Cpu.takeAlu (r : AluResult) (c : Cpu) : Cpu := ({ c with a := r.value } : Cpu).setAluFlags r

/-- The addition ADC and RRA make: decimal when D is set (R110, R172). -/
def Cpu.addResult (m : Byte) (c : Cpu) : AluResult :=
  if c.flag .d then addDec c.a m (c.flag .c) else addBin c.a m (c.flag .c)

/-- The subtraction SBC, USBC and ISC make: decimal when D is set (R111, R176, R181). -/
def Cpu.subResult (m : Byte) (c : Cpu) : AluResult :=
  if c.flag .d then subDec c.a m (c.flag .c) else subBin c.a m (c.flag .c)

/-- R110. -/
def Cpu.opAdc (m : Byte) (c : Cpu) : Cpu := c.takeAlu (c.addResult m)

/-- R111. -/
def Cpu.opSbc (m : Byte) (c : Cpu) : Cpu := c.takeAlu (c.subResult m)

/-- `Compare(A, M)` (R112). -/
def Cpu.opCmp (m : Byte) (c : Cpu) : Cpu := c.compare c.a m

/-- `Compare(X, M)` (R113). -/
def Cpu.opCpx (m : Byte) (c : Cpu) : Cpu := c.compare c.x m

/-- `Compare(Y, M)` (R114). -/
def Cpu.opCpy (m : Byte) (c : Cpu) : Cpu := c.compare c.y m

/-- `R <- u8(M + 1); setNZ(R)` (R115). -/
def Cpu.opInc (m : Byte) (c : Cpu) : Byte × Cpu := (m + 1, c.setNZ (m + 1))

/-- `R <- u8(M - 1); setNZ(R)` (R116). -/
def Cpu.opDec (m : Byte) (c : Cpu) : Byte × Cpu := (m - 1, c.setNZ (m - 1))

/-- `X <- u8(X + 1); setNZ(X)` (R117). -/
def Cpu.opInx (c : Cpu) : Cpu := ({ c with x := c.x + 1 } : Cpu).setNZ (c.x + 1)

/-- `Y <- u8(Y + 1); setNZ(Y)` (R118). -/
def Cpu.opIny (c : Cpu) : Cpu := ({ c with y := c.y + 1 } : Cpu).setNZ (c.y + 1)

/-- `X <- u8(X - 1); setNZ(X)` (R119). -/
def Cpu.opDex (c : Cpu) : Cpu := ({ c with x := c.x - 1 } : Cpu).setNZ (c.x - 1)

/-- `Y <- u8(Y - 1); setNZ(Y)` (R120). -/
def Cpu.opDey (c : Cpu) : Cpu := ({ c with y := c.y - 1 } : Cpu).setNZ (c.y - 1)

/-! ## The instructions -/

/-- ADC ($nn,X), 0x61 (R110). -/
def execAdcIndX (zp : Byte) (s : State) : Result := .next (readAt Cpu.opAdc (locIndirectX zp s))

/-- ADC $nn, 0x65 (R110). -/
def execAdcZp (zp : Byte) (s : State) : Result := .next (readAt Cpu.opAdc (locZeropage zp s))

/-- ADC #$nn, 0x69 (R110). -/
def execAdcImm (m : Byte) (s : State) : Result := .next (immediate Cpu.opAdc m s)

/-- ADC $nnnn, 0x6D (R110). -/
def execAdcAbs (addr : Word) (s : State) : Result := .next (readAt Cpu.opAdc (locAbsolute addr s))

/-- ADC ($nn),Y, 0x71 (R110). -/
def execAdcIndY (zp : Byte) (s : State) : Result := .next (readAt Cpu.opAdc (locIndirectY zp s))

/-- ADC $nn,X, 0x75 (R110). -/
def execAdcZpX (zp : Byte) (s : State) : Result := .next (readAt Cpu.opAdc (locZeropageIndexed .x zp s))

/-- ADC $nnnn,Y, 0x79 (R110). -/
def execAdcAbsY (addr : Word) (s : State) : Result := .next (readAt Cpu.opAdc (locAbsoluteIndexed .y addr s))

/-- ADC $nnnn,X, 0x7D (R110). -/
def execAdcAbsX (addr : Word) (s : State) : Result := .next (readAt Cpu.opAdc (locAbsoluteIndexed .x addr s))

/-- DEY, 0x88 (R120). -/
def execDey (s : State) : Result := .next (implied Cpu.opDey s)

/-- CPY #$nn, 0xC0 (R114). -/
def execCpyImm (m : Byte) (s : State) : Result := .next (immediate Cpu.opCpy m s)

/-- CMP ($nn,X), 0xC1 (R112). -/
def execCmpIndX (zp : Byte) (s : State) : Result := .next (readAt Cpu.opCmp (locIndirectX zp s))

/-- CPY $nn, 0xC4 (R114). -/
def execCpyZp (zp : Byte) (s : State) : Result := .next (readAt Cpu.opCpy (locZeropage zp s))

/-- CMP $nn, 0xC5 (R112). -/
def execCmpZp (zp : Byte) (s : State) : Result := .next (readAt Cpu.opCmp (locZeropage zp s))

/-- DEC $nn, 0xC6 (R116). -/
def execDecZp (zp : Byte) (s : State) : Result := .next (modifyAt Cpu.opDec (locZeropage zp s))

/-- INY, 0xC8 (R118). -/
def execIny (s : State) : Result := .next (implied Cpu.opIny s)

/-- CMP #$nn, 0xC9 (R112). -/
def execCmpImm (m : Byte) (s : State) : Result := .next (immediate Cpu.opCmp m s)

/-- DEX, 0xCA (R119). -/
def execDex (s : State) : Result := .next (implied Cpu.opDex s)

/-- CPY $nnnn, 0xCC (R114). -/
def execCpyAbs (addr : Word) (s : State) : Result := .next (readAt Cpu.opCpy (locAbsolute addr s))

/-- CMP $nnnn, 0xCD (R112). -/
def execCmpAbs (addr : Word) (s : State) : Result := .next (readAt Cpu.opCmp (locAbsolute addr s))

/-- DEC $nnnn, 0xCE (R116). -/
def execDecAbs (addr : Word) (s : State) : Result := .next (modifyAt Cpu.opDec (locAbsolute addr s))

/-- CMP ($nn),Y, 0xD1 (R112). -/
def execCmpIndY (zp : Byte) (s : State) : Result := .next (readAt Cpu.opCmp (locIndirectY zp s))

/-- CMP $nn,X, 0xD5 (R112). -/
def execCmpZpX (zp : Byte) (s : State) : Result := .next (readAt Cpu.opCmp (locZeropageIndexed .x zp s))

/-- DEC $nn,X, 0xD6 (R116). -/
def execDecZpX (zp : Byte) (s : State) : Result := .next (modifyAt Cpu.opDec (locZeropageIndexed .x zp s))

/-- CMP $nnnn,Y, 0xD9 (R112). -/
def execCmpAbsY (addr : Word) (s : State) : Result := .next (readAt Cpu.opCmp (locAbsoluteIndexed .y addr s))

/-- CMP $nnnn,X, 0xDD (R112). -/
def execCmpAbsX (addr : Word) (s : State) : Result := .next (readAt Cpu.opCmp (locAbsoluteIndexed .x addr s))

/-- DEC $nnnn,X, 0xDE (R116). -/
def execDecAbsX (addr : Word) (s : State) : Result := .next (modifyAt Cpu.opDec (locAbsoluteIndexed .x addr s))

/-- CPX #$nn, 0xE0 (R113). -/
def execCpxImm (m : Byte) (s : State) : Result := .next (immediate Cpu.opCpx m s)

/-- SBC ($nn,X), 0xE1 (R111). -/
def execSbcIndX (zp : Byte) (s : State) : Result := .next (readAt Cpu.opSbc (locIndirectX zp s))

/-- CPX $nn, 0xE4 (R113). -/
def execCpxZp (zp : Byte) (s : State) : Result := .next (readAt Cpu.opCpx (locZeropage zp s))

/-- SBC $nn, 0xE5 (R111). -/
def execSbcZp (zp : Byte) (s : State) : Result := .next (readAt Cpu.opSbc (locZeropage zp s))

/-- INC $nn, 0xE6 (R115). -/
def execIncZp (zp : Byte) (s : State) : Result := .next (modifyAt Cpu.opInc (locZeropage zp s))

/-- INX, 0xE8 (R117). -/
def execInx (s : State) : Result := .next (implied Cpu.opInx s)

/-- SBC #$nn, 0xE9 (R111). -/
def execSbcImm (m : Byte) (s : State) : Result := .next (immediate Cpu.opSbc m s)

/-- CPX $nnnn, 0xEC (R113). -/
def execCpxAbs (addr : Word) (s : State) : Result := .next (readAt Cpu.opCpx (locAbsolute addr s))

/-- SBC $nnnn, 0xED (R111). -/
def execSbcAbs (addr : Word) (s : State) : Result := .next (readAt Cpu.opSbc (locAbsolute addr s))

/-- INC $nnnn, 0xEE (R115). -/
def execIncAbs (addr : Word) (s : State) : Result := .next (modifyAt Cpu.opInc (locAbsolute addr s))

/-- SBC ($nn),Y, 0xF1 (R111). -/
def execSbcIndY (zp : Byte) (s : State) : Result := .next (readAt Cpu.opSbc (locIndirectY zp s))

/-- SBC $nn,X, 0xF5 (R111). -/
def execSbcZpX (zp : Byte) (s : State) : Result := .next (readAt Cpu.opSbc (locZeropageIndexed .x zp s))

/-- INC $nn,X, 0xF6 (R115). -/
def execIncZpX (zp : Byte) (s : State) : Result := .next (modifyAt Cpu.opInc (locZeropageIndexed .x zp s))

/-- SBC $nnnn,Y, 0xF9 (R111). -/
def execSbcAbsY (addr : Word) (s : State) : Result := .next (readAt Cpu.opSbc (locAbsoluteIndexed .y addr s))

/-- SBC $nnnn,X, 0xFD (R111). -/
def execSbcAbsX (addr : Word) (s : State) : Result := .next (readAt Cpu.opSbc (locAbsoluteIndexed .x addr s))

/-- INC $nnnn,X, 0xFE (R115). -/
def execIncAbsX (addr : Word) (s : State) : Result := .next (modifyAt Cpu.opInc (locAbsoluteIndexed .x addr s))

end Sys2Proof.Machine
end

