-- ==== Sys2Proof/Machine/Bitwise.lean ====
section
/-! DEFINITION. Bitwise operations, shifts and rotates (43_bitwise.md): AND, ORA, EOR, BIT, ASL, LSR, ROL, ROR. -/

namespace Sys2Proof.Machine

/-! ## Effects -/

/-- `A <- v; setNZ(A)`. -/
def Cpu.loadA (v : Byte) (c : Cpu) : Cpu := ({ c with a := v } : Cpu).setNZ v

/-- `A <- A & M; setNZ(A)` (R124). -/
def Cpu.opAnd (m : Byte) (c : Cpu) : Cpu := c.loadA (c.a &&& m)

/-- `A <- A | M; setNZ(A)` (R125). -/
def Cpu.opOra (m : Byte) (c : Cpu) : Cpu := c.loadA (c.a ||| m)

/-- `A <- A ^ M; setNZ(A)` (R126). -/
def Cpu.opEor (m : Byte) (c : Cpu) : Cpu := c.loadA (c.a ^^^ m)

/-- `P.Z <- ((A & M) = 0); P.V <- M[6]; P.N <- M[7]` (R127). -/
def Cpu.opBit (m : Byte) (c : Cpu) : Cpu :=
  ((c.setFlag .z (c.a &&& m == 0)).setFlag .v (m.getLsbD 6)).setFlag .n (m.getLsbD 7)

/-- A shift's result with the flags it leaves: C the carry out, N and Z from the result (R128 to R131). -/
def Cpu.shifted (r : Byte × Bool) (c : Cpu) : Byte × Cpu := (r.1, (c.setFlag .c r.2).setNZ r.1)

/-- R128. -/
def Cpu.opAsl (m : Byte) (c : Cpu) : Byte × Cpu := c.shifted (asl m)

/-- R129. -/
def Cpu.opLsr (m : Byte) (c : Cpu) : Byte × Cpu := c.shifted (lsr m)

/-- R130. -/
def Cpu.opRol (m : Byte) (c : Cpu) : Byte × Cpu := c.shifted (rol m (c.flag .c))

/-- R131. -/
def Cpu.opRor (m : Byte) (c : Cpu) : Byte × Cpu := c.shifted (ror m (c.flag .c))

/-! ## The instructions -/

/-- ORA ($nn,X), 0x01 (R125). -/
def execOraIndX (zp : Byte) (s : State) : Result := .next (readAt Cpu.opOra (locIndirectX zp s))

/-- ORA $nn, 0x05 (R125). -/
def execOraZp (zp : Byte) (s : State) : Result := .next (readAt Cpu.opOra (locZeropage zp s))

/-- ASL $nn, 0x06 (R128). -/
def execAslZp (zp : Byte) (s : State) : Result := .next (modifyAt Cpu.opAsl (locZeropage zp s))

/-- ORA #$nn, 0x09 (R125). -/
def execOraImm (m : Byte) (s : State) : Result := .next (immediate Cpu.opOra m s)

/-- ASL A, 0x0A (R128). -/
def execAslAcc (s : State) : Result := .next (implied (onAccumulator Cpu.opAsl) s)

/-- ORA $nnnn, 0x0D (R125). -/
def execOraAbs (addr : Word) (s : State) : Result := .next (readAt Cpu.opOra (locAbsolute addr s))

/-- ASL $nnnn, 0x0E (R128). -/
def execAslAbs (addr : Word) (s : State) : Result := .next (modifyAt Cpu.opAsl (locAbsolute addr s))

/-- ORA ($nn),Y, 0x11 (R125). -/
def execOraIndY (zp : Byte) (s : State) : Result := .next (readAt Cpu.opOra (locIndirectY zp s))

/-- ORA $nn,X, 0x15 (R125). -/
def execOraZpX (zp : Byte) (s : State) : Result := .next (readAt Cpu.opOra (locZeropageIndexed .x zp s))

/-- ASL $nn,X, 0x16 (R128). -/
def execAslZpX (zp : Byte) (s : State) : Result := .next (modifyAt Cpu.opAsl (locZeropageIndexed .x zp s))

/-- ORA $nnnn,Y, 0x19 (R125). -/
def execOraAbsY (addr : Word) (s : State) : Result := .next (readAt Cpu.opOra (locAbsoluteIndexed .y addr s))

/-- ORA $nnnn,X, 0x1D (R125). -/
def execOraAbsX (addr : Word) (s : State) : Result := .next (readAt Cpu.opOra (locAbsoluteIndexed .x addr s))

/-- ASL $nnnn,X, 0x1E (R128). -/
def execAslAbsX (addr : Word) (s : State) : Result := .next (modifyAt Cpu.opAsl (locAbsoluteIndexed .x addr s))

/-- AND ($nn,X), 0x21 (R124). -/
def execAndIndX (zp : Byte) (s : State) : Result := .next (readAt Cpu.opAnd (locIndirectX zp s))

/-- BIT $nn, 0x24 (R127). -/
def execBitZp (zp : Byte) (s : State) : Result := .next (readAt Cpu.opBit (locZeropage zp s))

/-- AND $nn, 0x25 (R124). -/
def execAndZp (zp : Byte) (s : State) : Result := .next (readAt Cpu.opAnd (locZeropage zp s))

/-- ROL $nn, 0x26 (R130). -/
def execRolZp (zp : Byte) (s : State) : Result := .next (modifyAt Cpu.opRol (locZeropage zp s))

/-- AND #$nn, 0x29 (R124). -/
def execAndImm (m : Byte) (s : State) : Result := .next (immediate Cpu.opAnd m s)

/-- ROL A, 0x2A (R130). -/
def execRolAcc (s : State) : Result := .next (implied (onAccumulator Cpu.opRol) s)

/-- BIT $nnnn, 0x2C (R127). -/
def execBitAbs (addr : Word) (s : State) : Result := .next (readAt Cpu.opBit (locAbsolute addr s))

/-- AND $nnnn, 0x2D (R124). -/
def execAndAbs (addr : Word) (s : State) : Result := .next (readAt Cpu.opAnd (locAbsolute addr s))

/-- ROL $nnnn, 0x2E (R130). -/
def execRolAbs (addr : Word) (s : State) : Result := .next (modifyAt Cpu.opRol (locAbsolute addr s))

/-- AND ($nn),Y, 0x31 (R124). -/
def execAndIndY (zp : Byte) (s : State) : Result := .next (readAt Cpu.opAnd (locIndirectY zp s))

/-- AND $nn,X, 0x35 (R124). -/
def execAndZpX (zp : Byte) (s : State) : Result := .next (readAt Cpu.opAnd (locZeropageIndexed .x zp s))

/-- ROL $nn,X, 0x36 (R130). -/
def execRolZpX (zp : Byte) (s : State) : Result := .next (modifyAt Cpu.opRol (locZeropageIndexed .x zp s))

/-- AND $nnnn,Y, 0x39 (R124). -/
def execAndAbsY (addr : Word) (s : State) : Result := .next (readAt Cpu.opAnd (locAbsoluteIndexed .y addr s))

/-- AND $nnnn,X, 0x3D (R124). -/
def execAndAbsX (addr : Word) (s : State) : Result := .next (readAt Cpu.opAnd (locAbsoluteIndexed .x addr s))

/-- ROL $nnnn,X, 0x3E (R130). -/
def execRolAbsX (addr : Word) (s : State) : Result := .next (modifyAt Cpu.opRol (locAbsoluteIndexed .x addr s))

/-- EOR ($nn,X), 0x41 (R126). -/
def execEorIndX (zp : Byte) (s : State) : Result := .next (readAt Cpu.opEor (locIndirectX zp s))

/-- EOR $nn, 0x45 (R126). -/
def execEorZp (zp : Byte) (s : State) : Result := .next (readAt Cpu.opEor (locZeropage zp s))

/-- LSR $nn, 0x46 (R129). -/
def execLsrZp (zp : Byte) (s : State) : Result := .next (modifyAt Cpu.opLsr (locZeropage zp s))

/-- EOR #$nn, 0x49 (R126). -/
def execEorImm (m : Byte) (s : State) : Result := .next (immediate Cpu.opEor m s)

/-- LSR A, 0x4A (R129). -/
def execLsrAcc (s : State) : Result := .next (implied (onAccumulator Cpu.opLsr) s)

/-- EOR $nnnn, 0x4D (R126). -/
def execEorAbs (addr : Word) (s : State) : Result := .next (readAt Cpu.opEor (locAbsolute addr s))

/-- LSR $nnnn, 0x4E (R129). -/
def execLsrAbs (addr : Word) (s : State) : Result := .next (modifyAt Cpu.opLsr (locAbsolute addr s))

/-- EOR ($nn),Y, 0x51 (R126). -/
def execEorIndY (zp : Byte) (s : State) : Result := .next (readAt Cpu.opEor (locIndirectY zp s))

/-- EOR $nn,X, 0x55 (R126). -/
def execEorZpX (zp : Byte) (s : State) : Result := .next (readAt Cpu.opEor (locZeropageIndexed .x zp s))

/-- LSR $nn,X, 0x56 (R129). -/
def execLsrZpX (zp : Byte) (s : State) : Result := .next (modifyAt Cpu.opLsr (locZeropageIndexed .x zp s))

/-- EOR $nnnn,Y, 0x59 (R126). -/
def execEorAbsY (addr : Word) (s : State) : Result := .next (readAt Cpu.opEor (locAbsoluteIndexed .y addr s))

/-- EOR $nnnn,X, 0x5D (R126). -/
def execEorAbsX (addr : Word) (s : State) : Result := .next (readAt Cpu.opEor (locAbsoluteIndexed .x addr s))

/-- LSR $nnnn,X, 0x5E (R129). -/
def execLsrAbsX (addr : Word) (s : State) : Result := .next (modifyAt Cpu.opLsr (locAbsoluteIndexed .x addr s))

/-- ROR $nn, 0x66 (R131). -/
def execRorZp (zp : Byte) (s : State) : Result := .next (modifyAt Cpu.opRor (locZeropage zp s))

/-- ROR A, 0x6A (R131). -/
def execRorAcc (s : State) : Result := .next (implied (onAccumulator Cpu.opRor) s)

/-- ROR $nnnn, 0x6E (R131). -/
def execRorAbs (addr : Word) (s : State) : Result := .next (modifyAt Cpu.opRor (locAbsolute addr s))

/-- ROR $nn,X, 0x76 (R131). -/
def execRorZpX (zp : Byte) (s : State) : Result := .next (modifyAt Cpu.opRor (locZeropageIndexed .x zp s))

/-- ROR $nnnn,X, 0x7E (R131). -/
def execRorAbsX (addr : Word) (s : State) : Result := .next (modifyAt Cpu.opRor (locAbsoluteIndexed .x addr s))

end Sys2Proof.Machine
end

