-- ==== Sys2Proof/Machine/Branch.lean ====
section
/-! DEFINITION. Branches and jumps (44_branch_jump.md): the eight conditional branches and JMP. -/

namespace Sys2Proof.Machine

/-! ## Shared operations -/

/-- `Branch(P.f = want)` (R132, R210): opcode and offset; when taken, a discarded read at PCnext, and when the target is in
another page one more at the target's low byte in PCnext's page. -/
def branch (f : Flag) (want : Bool) (off : Byte) (s : State) : State :=
  let s := s.fetched.fetched
  if s.cpu.flag f == want then
    let target := branchTarget s.cpu.pc off
    let s1 := s.dummyPc
    let s2 := if samePage target s.cpu.pc then s1 else s1.dummyRead (mkWord (hiByte s.cpu.pc) (loByte target))
    (s2.mapCpu (Cpu.jump target)).retire
  else s.retire

/-- JMP absolute (R142, R211). -/
def jumpAbsolute (target : Word) (s : State) : State := (s.fetched.fetched.fetched.mapCpu (Cpu.jump target)).retire

/-- JMP indirect (R94, R142, R211): the pointer's high byte is read within the pointer's page. -/
def jumpIndirect (ptr : Word) (s : State) : State :=
  let s := s.fetched.fetched.fetched
  let (lo, s) := s.busRead ptr
  let (hi, s) := s.busRead (samePageNext ptr)
  (s.mapCpu (Cpu.jump (mkWord hi lo))).retire

/-! ## The instructions -/

/-- BPL label, 0x10 (R134). -/
def execBpl (off : Byte) (s : State) : Result := .next (branch .n false off s)

/-- BMI label, 0x30 (R135). -/
def execBmi (off : Byte) (s : State) : Result := .next (branch .n true off s)

/-- JMP $nnnn, 0x4C (R142). -/
def execJmpAbs (target : Word) (s : State) : Result := .next (jumpAbsolute target s)

/-- BVC label, 0x50 (R136). -/
def execBvc (off : Byte) (s : State) : Result := .next (branch .v false off s)

/-- JMP ($nnnn), 0x6C (R142). -/
def execJmpInd (ptr : Word) (s : State) : Result := .next (jumpIndirect ptr s)

/-- BVS label, 0x70 (R137). -/
def execBvs (off : Byte) (s : State) : Result := .next (branch .v true off s)

/-- BCC label, 0x90 (R138). -/
def execBcc (off : Byte) (s : State) : Result := .next (branch .c false off s)

/-- BCS label, 0xB0 (R139). -/
def execBcs (off : Byte) (s : State) : Result := .next (branch .c true off s)

/-- BNE label, 0xD0 (R140). -/
def execBne (off : Byte) (s : State) : Result := .next (branch .z false off s)

/-- BEQ label, 0xF0 (R141). -/
def execBeq (off : Byte) (s : State) : Result := .next (branch .z true off s)

end Sys2Proof.Machine
end

