-- ==== Sys2Proof/Machine/Stack.lean ====
section
/-! DEFINITION. Stack, subroutine and break instructions (45_stack.md): PHA, PHP, PLA, PLP, JSR, RTS, RTI, BRK. -/

namespace Sys2Proof.Machine

/-! ## Effects -/

/-- The byte PHA pushes (R145). -/
def Cpu.opPha (c : Cpu) : Byte := c.a

/-- The byte PHP pushes: bits 4 and 5 forced to 1 (R146). -/
def Cpu.opPhp (c : Cpu) : Byte := c.statusForBreak

/-- `A <- v; setNZ(A)` (R147). -/
def Cpu.opPla (v : Byte) (c : Cpu) : Cpu := ({ c with a := v } : Cpu).setNZ v

/-- `SetP(v)` (R148). -/
def Cpu.opPlp (v : Byte) (c : Cpu) : Cpu := c.setP v

/-! ## Shared operations -/

/-- PHA and PHP: opcode, a discarded read at PC, the push (R212). -/
def pushValue (value : Cpu → Byte) (s : State) : State :=
  let s := s.fetched.dummyPc
  (s.push (value s.cpu)).retire

/-- PLA and PLP: opcode, a discarded read at PC, a discarded stack read, the pull (R212). -/
def pullValue (f : Byte → Cpu → Cpu) (s : State) : State :=
  let s := s.fetched.dummyPc.dummyStack
  let (v, s) := s.pull
  (s.mapCpu (f v)).retire

/-- JSR (R149, R213): opcode, b1, a discarded stack read, push PC (the address of JSR's last byte), and only then the read of
the target's high byte, from memory as the pushes left it. The decoded operand's high byte is therefore not used here: where
the pushes do not overwrite it, it is the byte read (log entry 5). -/
def jumpToSubroutine (target : Word) (s : State) : State :=
  let s := s.fetched.fetched.dummyStack
  let s := s.push (hiByte s.cpu.pc)
  let s := s.push (loByte s.cpu.pc)
  let (b2, s) := s.busRead s.cpu.pc
  (s.mapCpu (Cpu.jump (mkWord b2 (loByte target)))).retire

/-- RTS (R150, R214): pull the low byte, then the high byte, then add one. -/
def returnFromSubroutine (s : State) : State :=
  let s := s.fetched.dummyPc.dummyStack
  let (lo, s) := s.pull
  let (hi, s) := s.pull
  let s := s.mapCpu (Cpu.jump (mkWord hi lo))
  (s.dummyPc.mapCpu Cpu.incPc).retire

/-- RTI (R151, R215). -/
def returnFromInterrupt (s : State) : State := s.fetched.dummyPc.dummyStack.returnFromHandler.retire

/-- BRK (R152, R216): opcode, the padding byte, then the entry to the IRQ/BRK handler with bit 4 of the pushed status 1. -/
def breakInterrupt (s : State) : State :=
  let s := s.fetched.fetched
  (s.enterHandler s.cpu.statusForBreak Config.irqVector).retire

/-! ## The instructions -/

/-- BRK, 0x00 (R152). -/
def execBrk (s : State) : Result := .next (breakInterrupt s)

/-- PHP, 0x08 (R146). -/
def execPhp (s : State) : Result := .next (pushValue Cpu.opPhp s)

/-- JSR $nnnn, 0x20 (R149). -/
def execJsr (target : Word) (s : State) : Result := .next (jumpToSubroutine target s)

/-- PLP, 0x28 (R148). -/
def execPlp (s : State) : Result := .next (pullValue Cpu.opPlp s)

/-- RTI, 0x40 (R151). -/
def execRti (s : State) : Result := .next (returnFromInterrupt s)

/-- PHA, 0x48 (R145). -/
def execPha (s : State) : Result := .next (pushValue Cpu.opPha s)

/-- RTS, 0x60 (R150). -/
def execRts (s : State) : Result := .next (returnFromSubroutine s)

/-- PLA, 0x68 (R147). -/
def execPla (s : State) : Result := .next (pullValue Cpu.opPla s)

end Sys2Proof.Machine
end

