-- ==== Sys2Proof/Machine/Transfer.lean ====
section
/-! DEFINITION. Transfers, flag instructions and the documented NOP (46_transfer_flag_nop.md): TAX, TAY, TXA, TYA, TSX, TXS, CLC,
SEC, CLI, SEI, CLD, SED, CLV, NOP. -/

namespace Sys2Proof.Machine

/-! ## Effects -/

/-- `X <- A; setNZ(X)` (R153). -/
def Cpu.opTax (c : Cpu) : Cpu := ({ c with x := c.a } : Cpu).setNZ c.a

/-- `Y <- A; setNZ(Y)` (R154). -/
def Cpu.opTay (c : Cpu) : Cpu := ({ c with y := c.a } : Cpu).setNZ c.a

/-- `A <- X; setNZ(A)` (R155). -/
def Cpu.opTxa (c : Cpu) : Cpu := ({ c with a := c.x } : Cpu).setNZ c.x

/-- `A <- Y; setNZ(A)` (R156). -/
def Cpu.opTya (c : Cpu) : Cpu := ({ c with a := c.y } : Cpu).setNZ c.y

/-- `X <- S; setNZ(X)` (R157). -/
def Cpu.opTsx (c : Cpu) : Cpu := ({ c with x := c.s } : Cpu).setNZ c.s

/-- `S <- X`, no flag (R158). -/
def Cpu.opTxs (c : Cpu) : Cpu := { c with s := c.x }

/-- `P.C <- 0` (R159). -/
def Cpu.opClc (c : Cpu) : Cpu := c.setFlag .c false

/-- `P.C <- 1` (R160). -/
def Cpu.opSec (c : Cpu) : Cpu := c.setFlag .c true

/-- `P.I <- 0` (R161). -/
def Cpu.opCli (c : Cpu) : Cpu := c.setFlag .i false

/-- `P.I <- 1` (R162). -/
def Cpu.opSei (c : Cpu) : Cpu := c.setFlag .i true

/-- `P.D <- 0` (R163). -/
def Cpu.opCld (c : Cpu) : Cpu := c.setFlag .d false

/-- `P.D <- 1` (R164). -/
def Cpu.opSed (c : Cpu) : Cpu := c.setFlag .d true

/-- `P.V <- 0` (R165). -/
def Cpu.opClv (c : Cpu) : Cpu := c.setFlag .v false

/-- No register, flag or memory change (R166). -/
def Cpu.opNop (c : Cpu) : Cpu := c

/-! ## The instructions -/

/-- CLC, 0x18 (R159). -/
def execClc (s : State) : Result := .next (implied Cpu.opClc s)

/-- SEC, 0x38 (R160). -/
def execSec (s : State) : Result := .next (implied Cpu.opSec s)

/-- CLI, 0x58 (R161). -/
def execCli (s : State) : Result := .next (implied Cpu.opCli s)

/-- SEI, 0x78 (R162). -/
def execSei (s : State) : Result := .next (implied Cpu.opSei s)

/-- TXA, 0x8A (R155). -/
def execTxa (s : State) : Result := .next (implied Cpu.opTxa s)

/-- TYA, 0x98 (R156). -/
def execTya (s : State) : Result := .next (implied Cpu.opTya s)

/-- TXS, 0x9A (R158). -/
def execTxs (s : State) : Result := .next (implied Cpu.opTxs s)

/-- TAY, 0xA8 (R154). -/
def execTay (s : State) : Result := .next (implied Cpu.opTay s)

/-- TAX, 0xAA (R153). -/
def execTax (s : State) : Result := .next (implied Cpu.opTax s)

/-- CLV, 0xB8 (R165). -/
def execClv (s : State) : Result := .next (implied Cpu.opClv s)

/-- TSX, 0xBA (R157). -/
def execTsx (s : State) : Result := .next (implied Cpu.opTsx s)

/-- CLD, 0xD8 (R163). -/
def execCld (s : State) : Result := .next (implied Cpu.opCld s)

/-- NOP, 0xEA (R166). -/
def execNop (s : State) : Result := .next (implied Cpu.opNop s)

/-- SED, 0xF8 (R164). -/
def execSed (s : State) : Result := .next (implied Cpu.opSed s)

end Sys2Proof.Machine
end

