-- ==== Sys2Proof/Machine/Undocumented.lean ====
section
/-! DEFINITION. The undocumented opcodes (47_illegal.md): the read-modify-write composites SLO, RLA, SRE, RRA, DCP, ISC; SAX and
LAX; the immediate composites ANC, ALR, ARR, SBX and USBC; the unstable ANE, LXA, LAS, SHA, SHX, SHY, TAS; the undocumented NOPs;
JAM. -/

namespace Sys2Proof.Machine

/-! ## Effects -/

/-- A composite (R168): operation A's result and flags, then operation B on that result. -/
def composite (opA : Byte → Cpu → Byte × Cpu) (opB : Byte → Cpu → Cpu) (m : Byte) (c : Cpu) : Byte × Cpu :=
  let (r, c) := opA m c
  (r, opB r c)

/-- SLO = ASL then ORA (R169). -/
def Cpu.opSlo : Byte → Cpu → Byte × Cpu := composite Cpu.opAsl Cpu.opOra

/-- RLA = ROL then AND (R170). -/
def Cpu.opRla : Byte → Cpu → Byte × Cpu := composite Cpu.opRol Cpu.opAnd

/-- SRE = LSR then EOR (R171). -/
def Cpu.opSre : Byte → Cpu → Byte × Cpu := composite Cpu.opLsr Cpu.opEor

/-- RRA = ROR then ADC with the rotate's carry (R172). -/
def Cpu.opRra : Byte → Cpu → Byte × Cpu := composite Cpu.opRor Cpu.opAdc

/-- DCP = DEC then CMP (R175). -/
def Cpu.opDcp : Byte → Cpu → Byte × Cpu := composite Cpu.opDec Cpu.opCmp

/-- ISC = INC then SBC (R176). -/
def Cpu.opIsc : Byte → Cpu → Byte × Cpu := composite Cpu.opInc Cpu.opSbc

/-- The byte SAX stores (R173). -/
def Cpu.opSax (c : Cpu) : Byte := c.a &&& c.x

/-- `A <- M; X <- M; setNZ(M)` (R174). -/
def Cpu.opLax (m : Byte) (c : Cpu) : Cpu := ({ c with a := m, x := m } : Cpu).setNZ m

/-- `A <- A & M; setNZ(A); P.C <- A[7]` (R177). -/
def Cpu.opAnc (m : Byte) (c : Cpu) : Cpu := (c.loadA (c.a &&& m)).setFlag .c ((c.a &&& m).getLsbD 7)

/-- `t <- A & M; (A, P.C) <- Lsr(t); setNZ(A)` (R178). -/
def Cpu.opAlr (m : Byte) (c : Cpu) : Cpu :=
  let r := lsr (c.a &&& m)
  (c.setFlag .c r.2).loadA r.1

/-- ARR's rotated byte: `(t >> 1) | (P.C << 7)` (R179). -/
def arrRotated (t : Byte) (carry : Bool) : Byte := (ror t carry).1

/-- ARR in binary: A, N and Z from r, `P.C <- r[6]; P.V <- r[6] ^ r[5]` (R179). -/
def Cpu.arrBinary (t : Byte) (c : Cpu) : Cpu :=
  let r := arrRotated t (c.flag .c)
  ((c.loadA r).setFlag .c (r.getLsbD 6)).setFlag .v (r.getLsbD 6 ^^ r.getLsbD 5)

/-- The low-nibble fix-up of ARR in decimal: `if (t & 0x0F) + (t & 0x01) > 5 then r <- (r & 0xF0) | ((r + 6) & 0x0F)` (R179). -/
def arrLowFix (t r : Byte) : Byte :=
  if nibLo t.toNat + t.toNat % 2 > 5 then (r &&& 0xF0) ||| ((r + 6) &&& 0x0F) else r

/-- The test of ARR's high-nibble fix-up: `(t >> 4) + ((t >> 4) & 0x01) > 5` (R179). -/
def arrHighFixes (t : Byte) : Bool := decide (t.toNat / 16 + t.toNat / 16 % 2 > 5)

/-- ARR in decimal (R179): N is the old carry, Z from r before the fix-up, V from t and r, C from the high nibble of t. -/
def Cpu.arrDecimal (t : Byte) (c : Cpu) : Cpu :=
  let carry := c.flag .c
  let r := arrRotated t carry
  let low := arrLowFix t r
  let c := ((c.setFlag .n carry).setFlag .z (r == 0)).setFlag .v ((t ^^^ r).getLsbD 6)
  let c := c.setFlag .c (arrHighFixes t)
  { c with a := if arrHighFixes t then low + 0x60 else low }

/-- R179. -/
def Cpu.opArr (m : Byte) (c : Cpu) : Cpu :=
  if c.flag .d then c.arrDecimal (c.a &&& m) else c.arrBinary (c.a &&& m)

/-- `t <- A & X; P.C <- (t >= M); X <- u8(t - M); setNZ(X)` (R180). -/
def Cpu.opSbx (m : Byte) (c : Cpu) : Cpu :=
  let t := c.a &&& c.x
  ({ c with x := t - m } : Cpu).compare t m

/-- USBC, opcode 0xEB: SBC immediate again (R181). -/
def Cpu.opUsbc (m : Byte) (c : Cpu) : Cpu := c.opSbc m

/-- `A <- (A | magic) & X & M; setNZ(A)` (R182), for any value of the parameter ANE_MAGIC (R11). -/
def Cpu.aneWith (magic m : Byte) (c : Cpu) : Cpu := c.loadA ((c.a ||| magic) &&& c.x &&& m)

/-- ANE with the parameter's default (R11, R182). -/
def Cpu.opAne (m : Byte) (c : Cpu) : Cpu := c.aneWith Config.aneMagic m

/-- `A <- (A | magic) & M; X <- A; setNZ(A)` (R183), for any value of the parameter LXA_MAGIC (R11). -/
def Cpu.lxaWith (magic m : Byte) (c : Cpu) : Cpu :=
  let r := (c.a ||| magic) &&& m
  ({ c with a := r, x := r } : Cpu).setNZ r

/-- LXA with the parameter's default (R11, R183). -/
def Cpu.opLxa (m : Byte) (c : Cpu) : Cpu := c.lxaWith Config.lxaMagic m

/-- `r <- M & S; A <- r; X <- r; S <- r; setNZ(r)` (R184). -/
def Cpu.opLas (m : Byte) (c : Cpu) : Cpu :=
  let r := m &&& c.s
  ({ c with a := r, x := r, s := r } : Cpu).setNZ r

/-- SHA's register term, A & X (R186). -/
def Cpu.opSha (c : Cpu) : Byte × Cpu := (c.a &&& c.x, c)

/-- SHX's register term, X (R187). -/
def Cpu.opShx (c : Cpu) : Byte × Cpu := (c.x, c)

/-- SHY's register term, Y (R188). -/
def Cpu.opShy (c : Cpu) : Byte × Cpu := (c.y, c)

/-- TAS: `S <- A & X`, then S is the register term (R189). -/
def Cpu.opTas (c : Cpu) : Byte × Cpu := (c.a &&& c.x, { c with s := c.a &&& c.x })

/-- The undocumented NOPs discard the byte they read (R190). -/
def Cpu.discard (_m : Byte) (c : Cpu) : Cpu := c

/-- The core enters Halted (R191, R218). -/
def Cpu.halt (c : Cpu) : Cpu := { c with phase := .halted }

/-- JAM (R191, R218): the opcode fetch, then Halted; it does not retire (R196). -/
def State.jam (s : State) : State := s.fetched.mapCpu Cpu.halt

/-! ## The instructions -/

/-- JAM, 0x02, 0x12, 0x22, 0x32, 0x42, 0x52, 0x62, 0x72, 0x92, 0xB2, 0xD2, 0xF2 (R191). -/
def execJam (_op : Byte) (s : State) : Result := .next (s.jam)

/-- SLO ($nn,X), 0x03 (R169). -/
def execSloIndX (zp : Byte) (s : State) : Result := .next (modifyAt Cpu.opSlo (locIndirectX zp s))

/-- NOP $nn, 0x04, 0x44, 0x64 (R190). -/
def execNopZp (_op : Byte) (zp : Byte) (s : State) : Result := .next (readAt Cpu.discard (locZeropage zp s))

/-- SLO $nn, 0x07 (R169). -/
def execSloZp (zp : Byte) (s : State) : Result := .next (modifyAt Cpu.opSlo (locZeropage zp s))

/-- ANC #$nn, 0x0B, 0x2B (R177). -/
def execAncImm (_op : Byte) (m : Byte) (s : State) : Result := .next (immediate Cpu.opAnc m s)

/-- NOP $nnnn, 0x0C (R190). -/
def execNopAbs (addr : Word) (s : State) : Result := .next (readAt Cpu.discard (locAbsolute addr s))

/-- SLO $nnnn, 0x0F (R169). -/
def execSloAbs (addr : Word) (s : State) : Result := .next (modifyAt Cpu.opSlo (locAbsolute addr s))

/-- SLO ($nn),Y, 0x13 (R169). -/
def execSloIndY (zp : Byte) (s : State) : Result := .next (modifyAt Cpu.opSlo (locIndirectY zp s))

/-- NOP $nn,X, 0x14, 0x34, 0x54, 0x74, 0xD4, 0xF4 (R190). -/
def execNopZpX (_op : Byte) (zp : Byte) (s : State) : Result := .next (readAt Cpu.discard (locZeropageIndexed .x zp s))

/-- SLO $nn,X, 0x17 (R169). -/
def execSloZpX (zp : Byte) (s : State) : Result := .next (modifyAt Cpu.opSlo (locZeropageIndexed .x zp s))

/-- NOP, 0x1A, 0x3A, 0x5A, 0x7A, 0xDA, 0xFA (R190). -/
def execNopImp (_op : Byte) (s : State) : Result := .next (implied Cpu.opNop s)

/-- SLO $nnnn,Y, 0x1B (R169). -/
def execSloAbsY (addr : Word) (s : State) : Result := .next (modifyAt Cpu.opSlo (locAbsoluteIndexed .y addr s))

/-- NOP $nnnn,X, 0x1C, 0x3C, 0x5C, 0x7C, 0xDC, 0xFC (R190). -/
def execNopAbsX (_op : Byte) (addr : Word) (s : State) : Result := .next (readAt Cpu.discard (locAbsoluteIndexed .x addr s))

/-- SLO $nnnn,X, 0x1F (R169). -/
def execSloAbsX (addr : Word) (s : State) : Result := .next (modifyAt Cpu.opSlo (locAbsoluteIndexed .x addr s))

/-- RLA ($nn,X), 0x23 (R170). -/
def execRlaIndX (zp : Byte) (s : State) : Result := .next (modifyAt Cpu.opRla (locIndirectX zp s))

/-- RLA $nn, 0x27 (R170). -/
def execRlaZp (zp : Byte) (s : State) : Result := .next (modifyAt Cpu.opRla (locZeropage zp s))

/-- RLA $nnnn, 0x2F (R170). -/
def execRlaAbs (addr : Word) (s : State) : Result := .next (modifyAt Cpu.opRla (locAbsolute addr s))

/-- RLA ($nn),Y, 0x33 (R170). -/
def execRlaIndY (zp : Byte) (s : State) : Result := .next (modifyAt Cpu.opRla (locIndirectY zp s))

/-- RLA $nn,X, 0x37 (R170). -/
def execRlaZpX (zp : Byte) (s : State) : Result := .next (modifyAt Cpu.opRla (locZeropageIndexed .x zp s))

/-- RLA $nnnn,Y, 0x3B (R170). -/
def execRlaAbsY (addr : Word) (s : State) : Result := .next (modifyAt Cpu.opRla (locAbsoluteIndexed .y addr s))

/-- RLA $nnnn,X, 0x3F (R170). -/
def execRlaAbsX (addr : Word) (s : State) : Result := .next (modifyAt Cpu.opRla (locAbsoluteIndexed .x addr s))

/-- SRE ($nn,X), 0x43 (R171). -/
def execSreIndX (zp : Byte) (s : State) : Result := .next (modifyAt Cpu.opSre (locIndirectX zp s))

/-- SRE $nn, 0x47 (R171). -/
def execSreZp (zp : Byte) (s : State) : Result := .next (modifyAt Cpu.opSre (locZeropage zp s))

/-- ALR #$nn, 0x4B (R178). -/
def execAlrImm (m : Byte) (s : State) : Result := .next (immediate Cpu.opAlr m s)

/-- SRE $nnnn, 0x4F (R171). -/
def execSreAbs (addr : Word) (s : State) : Result := .next (modifyAt Cpu.opSre (locAbsolute addr s))

/-- SRE ($nn),Y, 0x53 (R171). -/
def execSreIndY (zp : Byte) (s : State) : Result := .next (modifyAt Cpu.opSre (locIndirectY zp s))

/-- SRE $nn,X, 0x57 (R171). -/
def execSreZpX (zp : Byte) (s : State) : Result := .next (modifyAt Cpu.opSre (locZeropageIndexed .x zp s))

/-- SRE $nnnn,Y, 0x5B (R171). -/
def execSreAbsY (addr : Word) (s : State) : Result := .next (modifyAt Cpu.opSre (locAbsoluteIndexed .y addr s))

/-- SRE $nnnn,X, 0x5F (R171). -/
def execSreAbsX (addr : Word) (s : State) : Result := .next (modifyAt Cpu.opSre (locAbsoluteIndexed .x addr s))

/-- RRA ($nn,X), 0x63 (R172). -/
def execRraIndX (zp : Byte) (s : State) : Result := .next (modifyAt Cpu.opRra (locIndirectX zp s))

/-- RRA $nn, 0x67 (R172). -/
def execRraZp (zp : Byte) (s : State) : Result := .next (modifyAt Cpu.opRra (locZeropage zp s))

/-- ARR #$nn, 0x6B (R179). -/
def execArrImm (m : Byte) (s : State) : Result := .next (immediate Cpu.opArr m s)

/-- RRA $nnnn, 0x6F (R172). -/
def execRraAbs (addr : Word) (s : State) : Result := .next (modifyAt Cpu.opRra (locAbsolute addr s))

/-- RRA ($nn),Y, 0x73 (R172). -/
def execRraIndY (zp : Byte) (s : State) : Result := .next (modifyAt Cpu.opRra (locIndirectY zp s))

/-- RRA $nn,X, 0x77 (R172). -/
def execRraZpX (zp : Byte) (s : State) : Result := .next (modifyAt Cpu.opRra (locZeropageIndexed .x zp s))

/-- RRA $nnnn,Y, 0x7B (R172). -/
def execRraAbsY (addr : Word) (s : State) : Result := .next (modifyAt Cpu.opRra (locAbsoluteIndexed .y addr s))

/-- RRA $nnnn,X, 0x7F (R172). -/
def execRraAbsX (addr : Word) (s : State) : Result := .next (modifyAt Cpu.opRra (locAbsoluteIndexed .x addr s))

/-- NOP #$nn, 0x80, 0x82, 0x89, 0xC2, 0xE2 (R190). -/
def execNopImm (_op : Byte) (m : Byte) (s : State) : Result := .next (immediate Cpu.discard m s)

/-- SAX ($nn,X), 0x83 (R173). -/
def execSaxIndX (zp : Byte) (s : State) : Result := .next (writeAt Cpu.opSax (locIndirectX zp s))

/-- SAX $nn, 0x87 (R173). -/
def execSaxZp (zp : Byte) (s : State) : Result := .next (writeAt Cpu.opSax (locZeropage zp s))

/-- ANE #$nn, 0x8B (R182). -/
def execAneImm (m : Byte) (s : State) : Result := .next (immediate Cpu.opAne m s)

/-- SAX $nnnn, 0x8F (R173). -/
def execSaxAbs (addr : Word) (s : State) : Result := .next (writeAt Cpu.opSax (locAbsolute addr s))

/-- SHA ($nn),Y, 0x93 (R186). -/
def execShaIndY (zp : Byte) (s : State) : Result := .next (unstableWriteAt Cpu.opSha (locIndirectY zp s))

/-- SAX $nn,Y, 0x97 (R173). -/
def execSaxZpY (zp : Byte) (s : State) : Result := .next (writeAt Cpu.opSax (locZeropageIndexed .y zp s))

/-- TAS $nnnn,Y, 0x9B (R189). -/
def execTasAbsY (addr : Word) (s : State) : Result := .next (unstableWriteAt Cpu.opTas (locAbsoluteIndexed .y addr s))

/-- SHY $nnnn,X, 0x9C (R188). -/
def execShyAbsX (addr : Word) (s : State) : Result := .next (unstableWriteAt Cpu.opShy (locAbsoluteIndexed .x addr s))

/-- SHX $nnnn,Y, 0x9E (R187). -/
def execShxAbsY (addr : Word) (s : State) : Result := .next (unstableWriteAt Cpu.opShx (locAbsoluteIndexed .y addr s))

/-- SHA $nnnn,Y, 0x9F (R186). -/
def execShaAbsY (addr : Word) (s : State) : Result := .next (unstableWriteAt Cpu.opSha (locAbsoluteIndexed .y addr s))

/-- LAX ($nn,X), 0xA3 (R174). -/
def execLaxIndX (zp : Byte) (s : State) : Result := .next (readAt Cpu.opLax (locIndirectX zp s))

/-- LAX $nn, 0xA7 (R174). -/
def execLaxZp (zp : Byte) (s : State) : Result := .next (readAt Cpu.opLax (locZeropage zp s))

/-- LXA #$nn, 0xAB (R183). -/
def execLxaImm (m : Byte) (s : State) : Result := .next (immediate Cpu.opLxa m s)

/-- LAX $nnnn, 0xAF (R174). -/
def execLaxAbs (addr : Word) (s : State) : Result := .next (readAt Cpu.opLax (locAbsolute addr s))

/-- LAX ($nn),Y, 0xB3 (R174). -/
def execLaxIndY (zp : Byte) (s : State) : Result := .next (readAt Cpu.opLax (locIndirectY zp s))

/-- LAX $nn,Y, 0xB7 (R174). -/
def execLaxZpY (zp : Byte) (s : State) : Result := .next (readAt Cpu.opLax (locZeropageIndexed .y zp s))

/-- LAS $nnnn,Y, 0xBB (R184). -/
def execLasAbsY (addr : Word) (s : State) : Result := .next (readAt Cpu.opLas (locAbsoluteIndexed .y addr s))

/-- LAX $nnnn,Y, 0xBF (R174). -/
def execLaxAbsY (addr : Word) (s : State) : Result := .next (readAt Cpu.opLax (locAbsoluteIndexed .y addr s))

/-- DCP ($nn,X), 0xC3 (R175). -/
def execDcpIndX (zp : Byte) (s : State) : Result := .next (modifyAt Cpu.opDcp (locIndirectX zp s))

/-- DCP $nn, 0xC7 (R175). -/
def execDcpZp (zp : Byte) (s : State) : Result := .next (modifyAt Cpu.opDcp (locZeropage zp s))

/-- SBX #$nn, 0xCB (R180). -/
def execSbxImm (m : Byte) (s : State) : Result := .next (immediate Cpu.opSbx m s)

/-- DCP $nnnn, 0xCF (R175). -/
def execDcpAbs (addr : Word) (s : State) : Result := .next (modifyAt Cpu.opDcp (locAbsolute addr s))

/-- DCP ($nn),Y, 0xD3 (R175). -/
def execDcpIndY (zp : Byte) (s : State) : Result := .next (modifyAt Cpu.opDcp (locIndirectY zp s))

/-- DCP $nn,X, 0xD7 (R175). -/
def execDcpZpX (zp : Byte) (s : State) : Result := .next (modifyAt Cpu.opDcp (locZeropageIndexed .x zp s))

/-- DCP $nnnn,Y, 0xDB (R175). -/
def execDcpAbsY (addr : Word) (s : State) : Result := .next (modifyAt Cpu.opDcp (locAbsoluteIndexed .y addr s))

/-- DCP $nnnn,X, 0xDF (R175). -/
def execDcpAbsX (addr : Word) (s : State) : Result := .next (modifyAt Cpu.opDcp (locAbsoluteIndexed .x addr s))

/-- ISC ($nn,X), 0xE3 (R176). -/
def execIscIndX (zp : Byte) (s : State) : Result := .next (modifyAt Cpu.opIsc (locIndirectX zp s))

/-- ISC $nn, 0xE7 (R176). -/
def execIscZp (zp : Byte) (s : State) : Result := .next (modifyAt Cpu.opIsc (locZeropage zp s))

/-- SBC #$nn, 0xEB (R181). -/
def execUsbcImm (m : Byte) (s : State) : Result := .next (immediate Cpu.opUsbc m s)

/-- ISC $nnnn, 0xEF (R176). -/
def execIscAbs (addr : Word) (s : State) : Result := .next (modifyAt Cpu.opIsc (locAbsolute addr s))

/-- ISC ($nn),Y, 0xF3 (R176). -/
def execIscIndY (zp : Byte) (s : State) : Result := .next (modifyAt Cpu.opIsc (locIndirectY zp s))

/-- ISC $nn,X, 0xF7 (R176). -/
def execIscZpX (zp : Byte) (s : State) : Result := .next (modifyAt Cpu.opIsc (locZeropageIndexed .x zp s))

/-- ISC $nnnn,Y, 0xFB (R176). -/
def execIscAbsY (addr : Word) (s : State) : Result := .next (modifyAt Cpu.opIsc (locAbsoluteIndexed .y addr s))

/-- ISC $nnnn,X, 0xFF (R176). -/
def execIscAbsX (addr : Word) (s : State) : Result := .next (modifyAt Cpu.opIsc (locAbsoluteIndexed .x addr s))

end Sys2Proof.Machine
end

