-- ==== Sys2Proof/Machine/Dispatch.lean ====
section
/-! DEFINITION. `exec`: the meaning of every instruction, one arm per constructor of Instr in opcode order. -/

namespace Sys2Proof.Machine

def exec (i : Instr) (s : State) : Host.Outcome State Fault Refusal :=
  match i with
  | .brk => Sys2Proof.Machine.execBrk s
  | .oraIndX zp => Sys2Proof.Machine.execOraIndX zp s
  | .jam op => Sys2Proof.Machine.execJam op s
  | .sloIndX zp => Sys2Proof.Machine.execSloIndX zp s
  | .nopZp op zp => Sys2Proof.Machine.execNopZp op zp s
  | .oraZp zp => Sys2Proof.Machine.execOraZp zp s
  | .aslZp zp => Sys2Proof.Machine.execAslZp zp s
  | .sloZp zp => Sys2Proof.Machine.execSloZp zp s
  | .php => Sys2Proof.Machine.execPhp s
  | .oraImm m => Sys2Proof.Machine.execOraImm m s
  | .aslAcc => Sys2Proof.Machine.execAslAcc s
  | .ancImm op m => Sys2Proof.Machine.execAncImm op m s
  | .nopAbs addr => Sys2Proof.Machine.execNopAbs addr s
  | .oraAbs addr => Sys2Proof.Machine.execOraAbs addr s
  | .aslAbs addr => Sys2Proof.Machine.execAslAbs addr s
  | .sloAbs addr => Sys2Proof.Machine.execSloAbs addr s
  | .bpl off => Sys2Proof.Machine.execBpl off s
  | .oraIndY zp => Sys2Proof.Machine.execOraIndY zp s
  | .sloIndY zp => Sys2Proof.Machine.execSloIndY zp s
  | .nopZpX op zp => Sys2Proof.Machine.execNopZpX op zp s
  | .oraZpX zp => Sys2Proof.Machine.execOraZpX zp s
  | .aslZpX zp => Sys2Proof.Machine.execAslZpX zp s
  | .sloZpX zp => Sys2Proof.Machine.execSloZpX zp s
  | .clc => Sys2Proof.Machine.execClc s
  | .oraAbsY addr => Sys2Proof.Machine.execOraAbsY addr s
  | .nopImp op => Sys2Proof.Machine.execNopImp op s
  | .sloAbsY addr => Sys2Proof.Machine.execSloAbsY addr s
  | .nopAbsX op addr => Sys2Proof.Machine.execNopAbsX op addr s
  | .oraAbsX addr => Sys2Proof.Machine.execOraAbsX addr s
  | .aslAbsX addr => Sys2Proof.Machine.execAslAbsX addr s
  | .sloAbsX addr => Sys2Proof.Machine.execSloAbsX addr s
  | .jsr target => Sys2Proof.Machine.execJsr target s
  | .andIndX zp => Sys2Proof.Machine.execAndIndX zp s
  | .rlaIndX zp => Sys2Proof.Machine.execRlaIndX zp s
  | .bitZp zp => Sys2Proof.Machine.execBitZp zp s
  | .andZp zp => Sys2Proof.Machine.execAndZp zp s
  | .rolZp zp => Sys2Proof.Machine.execRolZp zp s
  | .rlaZp zp => Sys2Proof.Machine.execRlaZp zp s
  | .plp => Sys2Proof.Machine.execPlp s
  | .andImm m => Sys2Proof.Machine.execAndImm m s
  | .rolAcc => Sys2Proof.Machine.execRolAcc s
  | .bitAbs addr => Sys2Proof.Machine.execBitAbs addr s
  | .andAbs addr => Sys2Proof.Machine.execAndAbs addr s
  | .rolAbs addr => Sys2Proof.Machine.execRolAbs addr s
  | .rlaAbs addr => Sys2Proof.Machine.execRlaAbs addr s
  | .bmi off => Sys2Proof.Machine.execBmi off s
  | .andIndY zp => Sys2Proof.Machine.execAndIndY zp s
  | .rlaIndY zp => Sys2Proof.Machine.execRlaIndY zp s
  | .andZpX zp => Sys2Proof.Machine.execAndZpX zp s
  | .rolZpX zp => Sys2Proof.Machine.execRolZpX zp s
  | .rlaZpX zp => Sys2Proof.Machine.execRlaZpX zp s
  | .sec => Sys2Proof.Machine.execSec s
  | .andAbsY addr => Sys2Proof.Machine.execAndAbsY addr s
  | .rlaAbsY addr => Sys2Proof.Machine.execRlaAbsY addr s
  | .andAbsX addr => Sys2Proof.Machine.execAndAbsX addr s
  | .rolAbsX addr => Sys2Proof.Machine.execRolAbsX addr s
  | .rlaAbsX addr => Sys2Proof.Machine.execRlaAbsX addr s
  | .rti => Sys2Proof.Machine.execRti s
  | .eorIndX zp => Sys2Proof.Machine.execEorIndX zp s
  | .sreIndX zp => Sys2Proof.Machine.execSreIndX zp s
  | .eorZp zp => Sys2Proof.Machine.execEorZp zp s
  | .lsrZp zp => Sys2Proof.Machine.execLsrZp zp s
  | .sreZp zp => Sys2Proof.Machine.execSreZp zp s
  | .pha => Sys2Proof.Machine.execPha s
  | .eorImm m => Sys2Proof.Machine.execEorImm m s
  | .lsrAcc => Sys2Proof.Machine.execLsrAcc s
  | .alrImm m => Sys2Proof.Machine.execAlrImm m s
  | .jmpAbs target => Sys2Proof.Machine.execJmpAbs target s
  | .eorAbs addr => Sys2Proof.Machine.execEorAbs addr s
  | .lsrAbs addr => Sys2Proof.Machine.execLsrAbs addr s
  | .sreAbs addr => Sys2Proof.Machine.execSreAbs addr s
  | .bvc off => Sys2Proof.Machine.execBvc off s
  | .eorIndY zp => Sys2Proof.Machine.execEorIndY zp s
  | .sreIndY zp => Sys2Proof.Machine.execSreIndY zp s
  | .eorZpX zp => Sys2Proof.Machine.execEorZpX zp s
  | .lsrZpX zp => Sys2Proof.Machine.execLsrZpX zp s
  | .sreZpX zp => Sys2Proof.Machine.execSreZpX zp s
  | .cli => Sys2Proof.Machine.execCli s
  | .eorAbsY addr => Sys2Proof.Machine.execEorAbsY addr s
  | .sreAbsY addr => Sys2Proof.Machine.execSreAbsY addr s
  | .eorAbsX addr => Sys2Proof.Machine.execEorAbsX addr s
  | .lsrAbsX addr => Sys2Proof.Machine.execLsrAbsX addr s
  | .sreAbsX addr => Sys2Proof.Machine.execSreAbsX addr s
  | .rts => Sys2Proof.Machine.execRts s
  | .adcIndX zp => Sys2Proof.Machine.execAdcIndX zp s
  | .rraIndX zp => Sys2Proof.Machine.execRraIndX zp s
  | .adcZp zp => Sys2Proof.Machine.execAdcZp zp s
  | .rorZp zp => Sys2Proof.Machine.execRorZp zp s
  | .rraZp zp => Sys2Proof.Machine.execRraZp zp s
  | .pla => Sys2Proof.Machine.execPla s
  | .adcImm m => Sys2Proof.Machine.execAdcImm m s
  | .rorAcc => Sys2Proof.Machine.execRorAcc s
  | .arrImm m => Sys2Proof.Machine.execArrImm m s
  | .jmpInd ptr => Sys2Proof.Machine.execJmpInd ptr s
  | .adcAbs addr => Sys2Proof.Machine.execAdcAbs addr s
  | .rorAbs addr => Sys2Proof.Machine.execRorAbs addr s
  | .rraAbs addr => Sys2Proof.Machine.execRraAbs addr s
  | .bvs off => Sys2Proof.Machine.execBvs off s
  | .adcIndY zp => Sys2Proof.Machine.execAdcIndY zp s
  | .rraIndY zp => Sys2Proof.Machine.execRraIndY zp s
  | .adcZpX zp => Sys2Proof.Machine.execAdcZpX zp s
  | .rorZpX zp => Sys2Proof.Machine.execRorZpX zp s
  | .rraZpX zp => Sys2Proof.Machine.execRraZpX zp s
  | .sei => Sys2Proof.Machine.execSei s
  | .adcAbsY addr => Sys2Proof.Machine.execAdcAbsY addr s
  | .rraAbsY addr => Sys2Proof.Machine.execRraAbsY addr s
  | .adcAbsX addr => Sys2Proof.Machine.execAdcAbsX addr s
  | .rorAbsX addr => Sys2Proof.Machine.execRorAbsX addr s
  | .rraAbsX addr => Sys2Proof.Machine.execRraAbsX addr s
  | .nopImm op m => Sys2Proof.Machine.execNopImm op m s
  | .staIndX zp => Sys2Proof.Machine.execStaIndX zp s
  | .saxIndX zp => Sys2Proof.Machine.execSaxIndX zp s
  | .styZp zp => Sys2Proof.Machine.execStyZp zp s
  | .staZp zp => Sys2Proof.Machine.execStaZp zp s
  | .stxZp zp => Sys2Proof.Machine.execStxZp zp s
  | .saxZp zp => Sys2Proof.Machine.execSaxZp zp s
  | .dey => Sys2Proof.Machine.execDey s
  | .txa => Sys2Proof.Machine.execTxa s
  | .aneImm m => Sys2Proof.Machine.execAneImm m s
  | .styAbs addr => Sys2Proof.Machine.execStyAbs addr s
  | .staAbs addr => Sys2Proof.Machine.execStaAbs addr s
  | .stxAbs addr => Sys2Proof.Machine.execStxAbs addr s
  | .saxAbs addr => Sys2Proof.Machine.execSaxAbs addr s
  | .bcc off => Sys2Proof.Machine.execBcc off s
  | .staIndY zp => Sys2Proof.Machine.execStaIndY zp s
  | .shaIndY zp => Sys2Proof.Machine.execShaIndY zp s
  | .styZpX zp => Sys2Proof.Machine.execStyZpX zp s
  | .staZpX zp => Sys2Proof.Machine.execStaZpX zp s
  | .stxZpY zp => Sys2Proof.Machine.execStxZpY zp s
  | .saxZpY zp => Sys2Proof.Machine.execSaxZpY zp s
  | .tya => Sys2Proof.Machine.execTya s
  | .staAbsY addr => Sys2Proof.Machine.execStaAbsY addr s
  | .txs => Sys2Proof.Machine.execTxs s
  | .tasAbsY addr => Sys2Proof.Machine.execTasAbsY addr s
  | .shyAbsX addr => Sys2Proof.Machine.execShyAbsX addr s
  | .staAbsX addr => Sys2Proof.Machine.execStaAbsX addr s
  | .shxAbsY addr => Sys2Proof.Machine.execShxAbsY addr s
  | .shaAbsY addr => Sys2Proof.Machine.execShaAbsY addr s
  | .ldyImm m => Sys2Proof.Machine.execLdyImm m s
  | .ldaIndX zp => Sys2Proof.Machine.execLdaIndX zp s
  | .ldxImm m => Sys2Proof.Machine.execLdxImm m s
  | .laxIndX zp => Sys2Proof.Machine.execLaxIndX zp s
  | .ldyZp zp => Sys2Proof.Machine.execLdyZp zp s
  | .ldaZp zp => Sys2Proof.Machine.execLdaZp zp s
  | .ldxZp zp => Sys2Proof.Machine.execLdxZp zp s
  | .laxZp zp => Sys2Proof.Machine.execLaxZp zp s
  | .tay => Sys2Proof.Machine.execTay s
  | .ldaImm m => Sys2Proof.Machine.execLdaImm m s
  | .tax => Sys2Proof.Machine.execTax s
  | .lxaImm m => Sys2Proof.Machine.execLxaImm m s
  | .ldyAbs addr => Sys2Proof.Machine.execLdyAbs addr s
  | .ldaAbs addr => Sys2Proof.Machine.execLdaAbs addr s
  | .ldxAbs addr => Sys2Proof.Machine.execLdxAbs addr s
  | .laxAbs addr => Sys2Proof.Machine.execLaxAbs addr s
  | .bcs off => Sys2Proof.Machine.execBcs off s
  | .ldaIndY zp => Sys2Proof.Machine.execLdaIndY zp s
  | .laxIndY zp => Sys2Proof.Machine.execLaxIndY zp s
  | .ldyZpX zp => Sys2Proof.Machine.execLdyZpX zp s
  | .ldaZpX zp => Sys2Proof.Machine.execLdaZpX zp s
  | .ldxZpY zp => Sys2Proof.Machine.execLdxZpY zp s
  | .laxZpY zp => Sys2Proof.Machine.execLaxZpY zp s
  | .clv => Sys2Proof.Machine.execClv s
  | .ldaAbsY addr => Sys2Proof.Machine.execLdaAbsY addr s
  | .tsx => Sys2Proof.Machine.execTsx s
  | .lasAbsY addr => Sys2Proof.Machine.execLasAbsY addr s
  | .ldyAbsX addr => Sys2Proof.Machine.execLdyAbsX addr s
  | .ldaAbsX addr => Sys2Proof.Machine.execLdaAbsX addr s
  | .ldxAbsY addr => Sys2Proof.Machine.execLdxAbsY addr s
  | .laxAbsY addr => Sys2Proof.Machine.execLaxAbsY addr s
  | .cpyImm m => Sys2Proof.Machine.execCpyImm m s
  | .cmpIndX zp => Sys2Proof.Machine.execCmpIndX zp s
  | .dcpIndX zp => Sys2Proof.Machine.execDcpIndX zp s
  | .cpyZp zp => Sys2Proof.Machine.execCpyZp zp s
  | .cmpZp zp => Sys2Proof.Machine.execCmpZp zp s
  | .decZp zp => Sys2Proof.Machine.execDecZp zp s
  | .dcpZp zp => Sys2Proof.Machine.execDcpZp zp s
  | .iny => Sys2Proof.Machine.execIny s
  | .cmpImm m => Sys2Proof.Machine.execCmpImm m s
  | .dex => Sys2Proof.Machine.execDex s
  | .sbxImm m => Sys2Proof.Machine.execSbxImm m s
  | .cpyAbs addr => Sys2Proof.Machine.execCpyAbs addr s
  | .cmpAbs addr => Sys2Proof.Machine.execCmpAbs addr s
  | .decAbs addr => Sys2Proof.Machine.execDecAbs addr s
  | .dcpAbs addr => Sys2Proof.Machine.execDcpAbs addr s
  | .bne off => Sys2Proof.Machine.execBne off s
  | .cmpIndY zp => Sys2Proof.Machine.execCmpIndY zp s
  | .dcpIndY zp => Sys2Proof.Machine.execDcpIndY zp s
  | .cmpZpX zp => Sys2Proof.Machine.execCmpZpX zp s
  | .decZpX zp => Sys2Proof.Machine.execDecZpX zp s
  | .dcpZpX zp => Sys2Proof.Machine.execDcpZpX zp s
  | .cld => Sys2Proof.Machine.execCld s
  | .cmpAbsY addr => Sys2Proof.Machine.execCmpAbsY addr s
  | .dcpAbsY addr => Sys2Proof.Machine.execDcpAbsY addr s
  | .cmpAbsX addr => Sys2Proof.Machine.execCmpAbsX addr s
  | .decAbsX addr => Sys2Proof.Machine.execDecAbsX addr s
  | .dcpAbsX addr => Sys2Proof.Machine.execDcpAbsX addr s
  | .cpxImm m => Sys2Proof.Machine.execCpxImm m s
  | .sbcIndX zp => Sys2Proof.Machine.execSbcIndX zp s
  | .iscIndX zp => Sys2Proof.Machine.execIscIndX zp s
  | .cpxZp zp => Sys2Proof.Machine.execCpxZp zp s
  | .sbcZp zp => Sys2Proof.Machine.execSbcZp zp s
  | .incZp zp => Sys2Proof.Machine.execIncZp zp s
  | .iscZp zp => Sys2Proof.Machine.execIscZp zp s
  | .inx => Sys2Proof.Machine.execInx s
  | .sbcImm m => Sys2Proof.Machine.execSbcImm m s
  | .nop => Sys2Proof.Machine.execNop s
  | .usbcImm m => Sys2Proof.Machine.execUsbcImm m s
  | .cpxAbs addr => Sys2Proof.Machine.execCpxAbs addr s
  | .sbcAbs addr => Sys2Proof.Machine.execSbcAbs addr s
  | .incAbs addr => Sys2Proof.Machine.execIncAbs addr s
  | .iscAbs addr => Sys2Proof.Machine.execIscAbs addr s
  | .beq off => Sys2Proof.Machine.execBeq off s
  | .sbcIndY zp => Sys2Proof.Machine.execSbcIndY zp s
  | .iscIndY zp => Sys2Proof.Machine.execIscIndY zp s
  | .sbcZpX zp => Sys2Proof.Machine.execSbcZpX zp s
  | .incZpX zp => Sys2Proof.Machine.execIncZpX zp s
  | .iscZpX zp => Sys2Proof.Machine.execIscZpX zp s
  | .sed => Sys2Proof.Machine.execSed s
  | .sbcAbsY addr => Sys2Proof.Machine.execSbcAbsY addr s
  | .iscAbsY addr => Sys2Proof.Machine.execIscAbsY addr s
  | .sbcAbsX addr => Sys2Proof.Machine.execSbcAbsX addr s
  | .incAbsX addr => Sys2Proof.Machine.execIncAbsX addr s
  | .iscAbsX addr => Sys2Proof.Machine.execIscAbsX addr s

end Sys2Proof.Machine
end

