-- ==== Sys2Proof/WellFormed.lean ====
section
/-! DEFINITION. Well-formedness. An instruction's operand is a byte or a word by its type and every value of either is legal
(R76). What can be ill-formed is the opcode byte of an instruction that carries one (R73), a table entry whose fields
contradict one another (R71, R74, R219), and an instruction whose opcode the table has no entry for (R77). -/

namespace Sys2Proof

/-- The modes whose effective address adds an index to a 16-bit base, and so may cross a page (R91). -/
def Mode.indexesBase : Mode → Bool
  | .absoluteX | .absoluteY | .indirectY => true
  | _ => false

/-- Cycles spent before the data access: opcode, operand bytes, pointer reads and index additions (R202 to R208), less the
uncorrected read of the modes that index a base. -/
def Mode.addressCycles : Mode → Nat
  | .implied | .accumulator | .immediate | .relative => 1
  | .zeropage => 2
  | .zeropageX | .zeropageY | .absolute | .absoluteX | .absoluteY | .indirect => 3
  | .indirectY => 4
  | .indirectX => 5

/-- The base cycle count the sequences of 48_cycle_engine.md give a read, write or read-modify-write entry (R201 to R208). -/
def AccessClass.baseCycles (cls : AccessClass) (m : Mode) : Nat :=
  match cls with
  | .read => m.addressCycles + 1
  | .write => m.addressCycles + (if m.indexesBase then 2 else 1)
  | .rmw => m.addressCycles + (if m.indexesBase then 4 else 3)
  | .control | .halt => 0

/-- The base cycle count of a control entry (R200, R210 to R216). -/
def Mnemonic.controlCycles (mn : Mnemonic) (m : Mode) : Nat :=
  match mn with
  | .brk => 7
  | .jsr | .rts | .rti => 6
  | .pla | .plp => 4
  | .pha | .php => 3
  | .jmp => if m = .indirect then 5 else 3
  | _ => 2

/-- R74: the boundary flag is set on exactly the read entries of the modes that index a base. -/
def Row.boundaryOk (r : Row) : Bool := r.boundary == (r.cls == .read && r.mode.indexesBase)

/-- The modes each access class may have (R71, R82 to R96): a read, write or read-modify-write entry resolves an operand, a
store has no immediate form, and only a control or halt entry is implied, accumulator, relative or indirect. -/
def Row.modeOk (r : Row) : Bool :=
  match r.cls, r.mode with
  | .halt, m => m == .implied
  | .control, m => m == .implied || m == .accumulator || m == .relative || m == .absolute || m == .indirect
  | _, .implied => false
  | _, .accumulator => false
  | _, .relative => false
  | _, .indirect => false
  | cls, .immediate => cls == .read
  | _, _ => true

/-- R219: the base count is the number of cycles the entry's sequence has, 1 for JAM (R218). -/
def Row.cyclesOk (r : Row) : Bool :=
  match r.cls with
  | .halt => r.cycles == 1
  | .control => r.cycles == r.mnemonic.controlCycles r.mode
  | cls => r.cycles == cls.baseCycles r.mode

/-- A table entry whose fields agree with one another. -/
def Row.wellFormed (r : Row) : Bool := r.boundaryOk && r.modeOk && r.cyclesOk

/-! The opcode bytes of each pair that several rows alias to (R73, R76). -/

/-- R73: the undocumented implied NOPs. -/
def nopImpOpcodes : List Byte := [0x1A, 0x3A, 0x5A, 0x7A, 0xDA, 0xFA]
/-- R73: the immediate NOPs. -/
def nopImmOpcodes : List Byte := [0x80, 0x82, 0x89, 0xC2, 0xE2]
/-- R73: the zeropage NOPs. -/
def nopZpOpcodes : List Byte := [0x04, 0x44, 0x64]
/-- R73: the zeropage_x NOPs. -/
def nopZpXOpcodes : List Byte := [0x14, 0x34, 0x54, 0x74, 0xD4, 0xF4]
/-- R73: the absolute_x NOPs. -/
def nopAbsXOpcodes : List Byte := [0x1C, 0x3C, 0x5C, 0x7C, 0xDC, 0xFC]
/-- R73: the two opcodes of ANC. -/
def ancOpcodes : List Byte := [0x0B, 0x2B]
/-- R76: the twelve opcodes of JAM. -/
def jamOpcodes : List Byte := [0x02, 0x12, 0x22, 0x32, 0x42, 0x52, 0x62, 0x72, 0x92, 0xB2, 0xD2, 0xF2]

/-- An instruction that carries its opcode byte carries one of its own (R73, R76); every other has one opcode. -/
def Instr.opcodeOk : Instr → Bool
  | .nopImp op => nopImpOpcodes.contains op
  | .nopImm op _ => nopImmOpcodes.contains op
  | .nopZp op _ => nopZpOpcodes.contains op
  | .nopZpX op _ => nopZpXOpcodes.contains op
  | .nopAbsX op _ => nopAbsXOpcodes.contains op
  | .ancImm op _ => ancOpcodes.contains op
  | .jam op => jamOpcodes.contains op
  | _ => true

/-- An instruction is well-formed for a table when its opcode byte is one of its own and the table has a well-formed entry
for it (R77), whose mode asks for as many bytes as the instruction has (R66). -/
def Instr.wellFormedIn (table : OpcodeTable) (i : Instr) : Bool :=
  i.opcodeOk &&
    match table i.opcode with
    | none => false
    | some r => r.wellFormed && r.length == i.length

/-- Well-formed for the core's own table. -/
abbrev Instr.WellFormed (i : Instr) : Prop := i.wellFormedIn opcodeTable = true

end Sys2Proof
end

