-- ==== Sys2Proof/Machine/Engine.lean ====
section
/-! DEFINITION. The cycle engine (48_cycle_engine.md): one bus cycle per call of `advance`, over ANY bus collaborator (R48, D20),
any instruction table (R77) and any value of the named parameters (R11). A sequence is a finite list of cycles selected from the
opcode's table entry (R197), consumed one a call through the micro-step index; a cycle may end its sequence early. -/

namespace Sys2Proof.Machine

/-- The named parameters (R11) and the instruction table (R77), each with the core's own value as default. -/
structure Params where
  table : OpcodeTable := opcodeTable
  aneMagic : Byte := Config.aneMagic
  lxaMagic : Byte := Config.lxaMagic

/-- The core with a bus collaborator's state. -/
structure Sys (β : Type) where
  cpu : Cpu
  bus : β
deriving DecidableEq, Repr

/-- What a host call answers (R224). -/
inductive CallResult where
  | ok
  | halted
  | invalidOpcode (op : Byte) (addr : Word)
  /-- The model's own (DESIGN CHOICE, log entry 9, safe): the micro-step index lies past the sequence in flight, in a state no run reaches. -/
  | noSuchCycle
deriving DecidableEq, Repr

/-! ## One bus access -/

/-- `MemRead` on the collaborator. -/
def Sys.read {β : Type} (B : Bus β) (a : Word) (s : Sys β) : Byte × Sys β :=
  ((B.peek s.bus a).1, { s with bus := (B.peek s.bus a).2 })

/-- `MemWrite` on the collaborator. -/
def Sys.write {β : Type} (B : Bus β) (a : Word) (v : Byte) (s : Sys β) : Sys β := { s with bus := B.poke s.bus a v }

/-- Change the core alone. -/
def Sys.mapCpu {β : Type} (f : Cpu → Cpu) (s : Sys β) : Sys β := { s with cpu := f s.cpu }

/-- A fetch (R198). -/
def Sys.fetch {β : Type} (B : Bus β) (s : Sys β) : Byte × Sys β :=
  ((s.read B s.cpu.pc).1, (s.read B s.cpu.pc).2.mapCpu Cpu.incPc)

/-- A push in one cycle: the address is formed from S before the update (R198). -/
def Sys.push {β : Type} (B : Bus β) (v : Byte) (s : Sys β) : Sys β := (s.write B (stackAddr s.cpu.s) v).mapCpu Cpu.decS

/-- Change the latches alone. -/
def Cpu.latch (f : Latches → Latches) (c : Cpu) : Cpu := { c with latches := f c.latches }

/-! ## The effect of each mnemonic, by access class

An entry of the core's own map names only its class's mnemonics (R72, R75). For another mnemonic, which only another table could
name, these functions change nothing, or store A (DESIGN CHOICE, log entry 17). -/

/-- Read class: the effect of the byte read. -/
def readEffect (P : Params) : Mnemonic → Byte → Cpu → Cpu
  | .lda => Cpu.opLda | .ldx => Cpu.opLdx | .ldy => Cpu.opLdy
  | .adc => Cpu.opAdc | .sbc => Cpu.opSbc
  | .cmp => Cpu.opCmp | .cpx => Cpu.opCpx | .cpy => Cpu.opCpy
  | .and => Cpu.opAnd | .ora => Cpu.opOra | .eor => Cpu.opEor | .bit => Cpu.opBit
  | .lax => Cpu.opLax | .las => Cpu.opLas
  | .anc => Cpu.opAnc | .alr => Cpu.opAlr | .arr => Cpu.opArr | .sbx => Cpu.opSbx
  | .ane => Cpu.aneWith P.aneMagic | .lxa => Cpu.lxaWith P.lxaMagic
  | _ => Cpu.discard

/-- Write class: the byte stored. -/
def writeEffect : Mnemonic → Cpu → Byte
  | .stx => Cpu.opStx
  | .sty => Cpu.opSty
  | .sax => Cpu.opSax
  | _ => Cpu.opSta

/-- The register term of the unstable stores (R185); none for an ordinary store. -/
def unstableEffect : Mnemonic → Option (Cpu → Byte × Cpu)
  | .sha => some Cpu.opSha
  | .shx => some Cpu.opShx
  | .shy => some Cpu.opShy
  | .tas => some Cpu.opTas
  | _ => none

/-- Read-modify-write class, and the shifts on the accumulator: the result and the core it leaves. -/
def modifyEffect : Mnemonic → Byte → Cpu → Byte × Cpu
  | .asl => Cpu.opAsl | .lsr => Cpu.opLsr | .rol => Cpu.opRol | .ror => Cpu.opRor
  | .inc => Cpu.opInc | .dec => Cpu.opDec
  | .slo => Cpu.opSlo | .rla => Cpu.opRla | .sre => Cpu.opSre | .rra => Cpu.opRra
  | .dcp => Cpu.opDcp | .isc => Cpu.opIsc
  | _ => fun m c => (m, c)

/-- The two-cycle implied instructions. -/
def impliedEffect : Mnemonic → Cpu → Cpu
  | .tax => Cpu.opTax | .tay => Cpu.opTay | .txa => Cpu.opTxa | .tya => Cpu.opTya
  | .tsx => Cpu.opTsx | .txs => Cpu.opTxs
  | .clc => Cpu.opClc | .sec => Cpu.opSec | .cli => Cpu.opCli | .sei => Cpu.opSei
  | .cld => Cpu.opCld | .sed => Cpu.opSed | .clv => Cpu.opClv
  | .inx => Cpu.opInx | .iny => Cpu.opIny | .dex => Cpu.opDex | .dey => Cpu.opDey
  | _ => Cpu.opNop

/-- The condition of a branch: the flag it tests and the value it wants (R134 to R141). -/
def branchCondition : Mnemonic → Flag × Bool
  | .bpl => (.n, false) | .bmi => (.n, true)
  | .bvc => (.v, false) | .bvs => (.v, true)
  | .bcc => (.c, false) | .bcs => (.c, true)
  | .bne => (.z, false) | _ => (.z, true)

/-! ## The cycles -/

/-- One cycle of a sequence. Each is one row of the tables of R199 to R217. -/
inductive Cycle where
  /-- R199, cycle 1 of every instruction. -/
  | fetchOpcode
  /-- R200 cycle 2: a discarded read at PC, then the operation. -/
  | implied
  /-- R201 cycle 2. -/
  | immediate
  /-- A fetch of b1. -/
  | fetchB1
  /-- R202 cycle 2: a fetch of b1, which is the address. -/
  | fetchZeropage
  /-- R203 cycle 3: a discarded read of the unindexed address; the index is added. -/
  | indexZeropage (i : Index)
  /-- R204 cycle 3: a fetch of b2; the address is b2:b1. -/
  | fetchAbsolute
  /-- R205, R206 cycle 3: a fetch of b2; EA0, EA and crossed. -/
  | fetchAbsoluteIndexed (i : Index)
  /-- R207 cycle 3: a discarded read of b1; p = u8(b1 + X). -/
  | indexPointer
  /-- R207 cycle 4: the pointer's low byte. -/
  | pointerLo
  /-- R207 cycle 5: the pointer's high byte; the address is the pointer. -/
  | pointerHi
  /-- R208 cycle 3: the pointer's low byte at b1. -/
  | basePointerLo
  /-- R208 cycle 4: the pointer's high byte at u8(b1 + 1); EA0, EA and crossed. -/
  | basePointerHi
  /-- R205, R208: a read at EA0, the data read unless a page was crossed. -/
  | readUncorrected
  /-- R206, R208: a discarded read at EA0, crossed or not; also of a read entry with the boundary flag clear (log entry 19). -/
  | dummyUncorrected
  /-- The data read of a read-class instruction, its last cycle. -/
  | readData
  /-- The write of a write-class instruction, its last cycle. -/
  | writeData
  /-- R209: the data read of a read-modify-write. -/
  | modifyRead
  /-- R209: the write of the unmodified byte. -/
  | modifyDummy
  /-- R209: the write of the result, with the flag and register effects. -/
  | modifyWrite
  /-- R210 cycle 2: a fetch of the offset; the condition; ends if not taken. -/
  | branchTest
  /-- R210 cycle 3: a discarded read at PC; ends in the same page. -/
  | branchTake
  /-- R210 cycle 4: a discarded read at hi(PC):lo(target). -/
  | branchFix
  /-- R211 cycle 3 of JMP absolute. -/
  | jumpAbsolute
  /-- R211 cycle 3 of JMP indirect: a fetch of b2; the pointer. -/
  | fetchPointer
  /-- R211 cycle 4. -/
  | jumpLo
  /-- R211 cycle 5: the high byte within the pointer's page. -/
  | jumpHi
  /-- A discarded read at PC, PC not incremented (R212, R214, R215, R217). -/
  | dummyPc
  /-- R212 cycle 3 of PHA and PHP. -/
  | pushValue
  /-- R213 cycle 3: a discarded read of the stack slot. -/
  | dummyStack
  /-- A discarded read of the stack slot, then S is incremented (R212, R214, R215). -/
  | dummyStackInc
  /-- R212 cycle 4 of PLA and PLP. -/
  | pullValue
  /-- R213, R216, R217: push PC high. -/
  | pushPcHi
  /-- R213, R216, R217: push PC low. -/
  | pushPcLo
  /-- R213 cycle 6: a read of b2 at PC; PC is b2:b1. -/
  | jsrTarget
  /-- R215 cycle 4: pull P; S is incremented. -/
  | pullStatus
  /-- R214 cycle 4, R215 cycle 5: pull PC low; S is incremented. -/
  | pullPcLo
  /-- R214 cycle 5: pull PC high. -/
  | pullPcHi
  /-- R215 cycle 6: pull PC high, RTI's last cycle. -/
  | pullPcHiLast
  /-- R214 cycle 6: a discarded read at PC; PC is incremented. -/
  | returnInc
  /-- R216 cycle 2: the padding byte. -/
  | padding
  /-- R216 cycle 5: push the status with bit 4 set; the vector is 0xFFFE. -/
  | pushBreakStatus
  /-- R217 cycle 5: push the status with bit 4 clear. -/
  | pushInterruptStatus
  /-- R216, R217 cycle 6: the vector's low byte; I is set. -/
  | vectorLo
  /-- R216, R217 cycle 7: the vector's high byte; the jump. -/
  | vectorHi
deriving DecidableEq, Repr

/-- The cycles up to and with the one that forms the address (R202 to R208). -/
def addressCyclesOf : Mode → List Cycle
  | .zeropage => [.fetchOpcode, .fetchZeropage]
  | .zeropageX => [.fetchOpcode, .fetchB1, .indexZeropage .x]
  | .zeropageY => [.fetchOpcode, .fetchB1, .indexZeropage .y]
  | .absolute => [.fetchOpcode, .fetchB1, .fetchAbsolute]
  | .absoluteX => [.fetchOpcode, .fetchB1, .fetchAbsoluteIndexed .x]
  | .absoluteY => [.fetchOpcode, .fetchB1, .fetchAbsoluteIndexed .y]
  | .indirectX => [.fetchOpcode, .fetchB1, .indexPointer, .pointerLo, .pointerHi]
  | .indirectY => [.fetchOpcode, .fetchB1, .basePointerLo, .basePointerHi]
  | .implied | .accumulator | .immediate | .relative | .indirect => [.fetchOpcode]

/-- The sequences of the control entries (R200, R210 to R216). -/
def controlSequence (mn : Mnemonic) (mode : Mode) : List Cycle :=
  match mn with
  | .jmp =>
    if mode = .indirect then [.fetchOpcode, .fetchB1, .fetchPointer, .jumpLo, .jumpHi]
    else [.fetchOpcode, .fetchB1, .jumpAbsolute]
  | .jsr => [.fetchOpcode, .fetchB1, .dummyStack, .pushPcHi, .pushPcLo, .jsrTarget]
  | .rts => [.fetchOpcode, .dummyPc, .dummyStackInc, .pullPcLo, .pullPcHi, .returnInc]
  | .rti => [.fetchOpcode, .dummyPc, .dummyStackInc, .pullStatus, .pullPcLo, .pullPcHiLast]
  | .brk => [.fetchOpcode, .padding, .pushPcHi, .pushPcLo, .pushBreakStatus, .vectorLo, .vectorHi]
  | .pha | .php => [.fetchOpcode, .dummyPc, .pushValue]
  | .pla | .plp => [.fetchOpcode, .dummyPc, .dummyStackInc, .pullValue]
  | _ => if mode = .relative then [.fetchOpcode, .branchTest, .branchTake, .branchFix] else [.fetchOpcode, .implied]

/-- The data cycles of a read entry. In a mode that indexes a base the boundary flag of the entry governs the extra cycle (R74,
R93): with the flag set it is spent when a page was crossed (R205, R208). With the flag clear the count does not depend on the
crossing and includes the extra cycle (R93); no entry of the core's own map is such a one, R205 gives it no sequence, and its
accesses here, those of a write with a read at the end, are the model's (DESIGN CHOICE, log entry 19). -/
def readCycles (r : Row) : List Cycle :=
  if r.mode.indexesBase then [if r.boundary then .readUncorrected else .dummyUncorrected, .readData] else [.readData]

/-- The sequence of cycles of a table entry (R197, R199 to R218). The boundary flag of a write or read-modify-write entry, set in
no entry of the core's own map (R74), changes nothing: the extra cycle is always taken (R206; DESIGN CHOICE, log entry 19). -/
def sequenceOf (r : Row) : List Cycle :=
  match r.cls with
  | .halt => [.fetchOpcode]
  | .control => controlSequence r.mnemonic r.mode
  | .read =>
    if r.mode = .immediate then [.fetchOpcode, .immediate]
    else addressCyclesOf r.mode ++ readCycles r
  | .write => addressCyclesOf r.mode ++ (if r.mode.indexesBase then [.dummyUncorrected, .writeData] else [.writeData])
  | .rmw =>
    addressCyclesOf r.mode ++
      (if r.mode.indexesBase then [.dummyUncorrected, .modifyRead, .modifyDummy, .modifyWrite]
      else [.modifyRead, .modifyDummy, .modifyWrite])

/-- The interrupt sequence (R217). -/
def interruptCycles : List Cycle :=
  [.dummyPc, .dummyPc, .pushPcHi, .pushPcLo, .pushInterruptStatus, .vectorLo, .vectorHi]

/-- The phase while a cycle of an instruction is performed (R192): control instructions execute from cycle 2 on, the others
resolve their address until the data access. -/
def phaseOf (cls : AccessClass) (cy : Cycle) : Phase :=
  match cy with
  | .fetchOpcode => .fetching
  | .fetchB1 | .fetchZeropage | .indexZeropage _ | .fetchAbsolute | .fetchAbsoluteIndexed _ | .indexPointer | .pointerLo
  | .pointerHi | .basePointerLo | .basePointerHi | .readUncorrected | .dummyUncorrected =>
    if cls = .control then .executing else .resolvingAddress
  | _ => .executing

/-- Latch EA0, EA and crossed for an index on a base (R90 to R92). -/
def Latches.onBase (base : Word) (i : Byte) (l : Latches) : Latches :=
  { l with ea0 := uncorrected base i, ea := baseIndexed base i, crossed := pageCrossed base i }

/-- Perform one cycle of an instruction with mnemonic `mn`, or of the interrupt sequence: its one bus access with the updates
listed for it, and whether it ends the sequence. -/
def Cycle.perform {β : Type} (P : Params) (B : Bus β) (mn : Mnemonic) (cy : Cycle) (s : Sys β) : Sys β × Bool :=
  match cy with
  | .fetchOpcode =>
    let (op, s) := s.fetch B
    (s.mapCpu (Cpu.latch fun l => { l with opcode := op }), false)
  | .implied =>
    let (_, s) := s.read B s.cpu.pc
    (s.mapCpu fun c =>
      match mn with
      | .asl | .lsr | .rol | .ror => onAccumulator (modifyEffect mn) c
      | _ => impliedEffect mn c, true)
  | .immediate =>
    let (m, s) := s.fetch B
    (s.mapCpu (readEffect P mn m), true)
  | .fetchB1 =>
    let (b1, s) := s.fetch B
    (s.mapCpu (Cpu.latch fun l => { l with b1 := b1 }), false)
  | .fetchZeropage =>
    let (b1, s) := s.fetch B
    (s.mapCpu (Cpu.latch fun l => { l with b1 := b1, ea0 := zeroPage b1, ea := zeroPage b1 }), false)
  | .indexZeropage i =>
    let b1 := s.cpu.latches.b1
    let (_, s) := s.read B (zeroPage b1)
    let ea := zpIndexed b1 (s.cpu.index i)
    (s.mapCpu (Cpu.latch fun l => { l with ea0 := ea, ea := ea }), false)
  | .fetchAbsolute =>
    let (b2, s) := s.fetch B
    let ea := mkWord b2 s.cpu.latches.b1
    (s.mapCpu (Cpu.latch fun l => { l with b2 := b2, ea0 := ea, ea := ea }), false)
  | .fetchAbsoluteIndexed i =>
    let (b2, s) := s.fetch B
    let base := mkWord b2 s.cpu.latches.b1
    let idx := s.cpu.index i
    (s.mapCpu (Cpu.latch fun l => { l with b2 := b2 }.onBase base idx), false)
  | .indexPointer =>
    let b1 := s.cpu.latches.b1
    let (_, s) := s.read B (zeroPage b1)
    let p := zeroPage (b1 + s.cpu.x)
    (s.mapCpu (Cpu.latch fun l => { l with ptr := p }), false)
  | .pointerLo =>
    let (lo, s) := s.read B s.cpu.latches.ptr
    (s.mapCpu (Cpu.latch fun l => { l with data := lo }), false)
  | .pointerHi =>
    let (hi, s) := s.read B (samePageNext s.cpu.latches.ptr)
    let ea := mkWord hi s.cpu.latches.data
    (s.mapCpu (Cpu.latch fun l => { l with ea0 := ea, ea := ea }), false)
  | .basePointerLo =>
    let ptr := zeroPage s.cpu.latches.b1
    let (lo, s) := s.read B ptr
    (s.mapCpu (Cpu.latch fun l => { l with ptr := ptr, data := lo }), false)
  | .basePointerHi =>
    let (hi, s) := s.read B (samePageNext s.cpu.latches.ptr)
    let base := mkWord hi s.cpu.latches.data
    let idx := s.cpu.y
    (s.mapCpu (Cpu.latch fun l => l.onBase base idx), false)
  | .readUncorrected =>
    let (m, s) := s.read B s.cpu.latches.ea0
    if s.cpu.latches.crossed then (s, false) else (s.mapCpu (readEffect P mn m), true)
  | .dummyUncorrected =>
    let (_, s) := s.read B s.cpu.latches.ea0
    (s, false)
  | .readData =>
    let (m, s) := s.read B s.cpu.latches.ea
    (s.mapCpu (readEffect P mn m), true)
  | .writeData =>
    match unstableEffect mn with
    | none => (s.write B s.cpu.latches.ea (writeEffect mn s.cpu), true)
    | some regs =>
      let l := s.cpu.latches
      let (reg, c) := regs s.cpu
      let value := shValue reg l.ea0
      (({ s with cpu := c } : Sys β).write B (shAddr value l.ea l.crossed) value, true)
  | .modifyRead =>
    let (m, s) := s.read B s.cpu.latches.ea
    (s.mapCpu (Cpu.latch fun l => { l with data := m }), false)
  | .modifyDummy => (s.write B s.cpu.latches.ea s.cpu.latches.data, false)
  | .modifyWrite =>
    let ea := s.cpu.latches.ea
    let (r, c) := modifyEffect mn s.cpu.latches.data s.cpu
    (({ s with cpu := c } : Sys β).write B ea r, true)
  | .branchTest =>
    let (off, s) := s.fetch B
    let s := s.mapCpu (Cpu.latch fun l => { l with b1 := off })
    (s, s.cpu.flag (branchCondition mn).1 != (branchCondition mn).2)
  | .branchTake =>
    let pcNext := s.cpu.pc
    let target := branchTarget pcNext s.cpu.latches.b1
    let (_, s) := s.read B pcNext
    let s := s.mapCpu (Cpu.latch fun l => { l with target := target })
    if samePage target pcNext then (s.mapCpu (Cpu.jump target), true) else (s, false)
  | .branchFix =>
    let target := s.cpu.latches.target
    let (_, s) := s.read B (mkWord (hiByte s.cpu.pc) (loByte target))
    (s.mapCpu (Cpu.jump target), true)
  | .jumpAbsolute =>
    let (b2, s) := s.fetch B
    let target := mkWord b2 s.cpu.latches.b1
    (s.mapCpu (Cpu.jump target), true)
  | .fetchPointer =>
    let (b2, s) := s.fetch B
    let ptr := mkWord b2 s.cpu.latches.b1
    (s.mapCpu (Cpu.latch fun l => { l with b2 := b2, ptr := ptr }), false)
  | .jumpLo =>
    let (lo, s) := s.read B s.cpu.latches.ptr
    (s.mapCpu (Cpu.latch fun l => { l with data := lo }), false)
  | .jumpHi =>
    let (hi, s) := s.read B (samePageNext s.cpu.latches.ptr)
    let target := mkWord hi s.cpu.latches.data
    (s.mapCpu (Cpu.jump target), true)
  | .dummyPc =>
    let (_, s) := s.read B s.cpu.pc
    (s, false)
  | .pushValue => (s.push B (if mn = .php then s.cpu.opPhp else s.cpu.opPha), true)
  | .dummyStack =>
    let (_, s) := s.read B (stackAddr s.cpu.s)
    (s, false)
  | .dummyStackInc =>
    let (_, s) := s.read B (stackAddr s.cpu.s)
    (s.mapCpu Cpu.incS, false)
  | .pullValue =>
    let (v, s) := s.read B (stackAddr s.cpu.s)
    (s.mapCpu (if mn = .plp then Cpu.opPlp v else Cpu.opPla v), true)
  | .pushPcHi => (s.push B (hiByte s.cpu.pc), false)
  | .pushPcLo => (s.push B (loByte s.cpu.pc), false)
  | .jsrTarget =>
    let (b2, s) := s.read B s.cpu.pc
    let target := mkWord b2 s.cpu.latches.b1
    (s.mapCpu (Cpu.jump target), true)
  | .pullStatus =>
    let (v, s) := s.read B (stackAddr s.cpu.s)
    ((s.mapCpu (Cpu.setP v)).mapCpu Cpu.incS, false)
  | .pullPcLo =>
    let (lo, s) := s.read B (stackAddr s.cpu.s)
    ((s.mapCpu (Cpu.latch fun l => { l with data := lo })).mapCpu Cpu.incS, false)
  | .pullPcHi =>
    let (hi, s) := s.read B (stackAddr s.cpu.s)
    let target := mkWord hi s.cpu.latches.data
    (s.mapCpu (Cpu.jump target), false)
  | .pullPcHiLast =>
    let (hi, s) := s.read B (stackAddr s.cpu.s)
    let target := mkWord hi s.cpu.latches.data
    (s.mapCpu (Cpu.jump target), true)
  | .returnInc =>
    let (_, s) := s.read B s.cpu.pc
    (s.mapCpu Cpu.incPc, true)
  | .padding =>
    let (_, s) := s.fetch B
    (s, false)
  | .pushBreakStatus =>
    ((s.push B s.cpu.statusForBreak).mapCpu (Cpu.latch fun l => { l with vector := Config.irqVector }), false)
  | .pushInterruptStatus => (s.push B s.cpu.statusForInterrupt, false)
  | .vectorLo =>
    let (lo, s) := s.read B s.cpu.latches.vector
    ((s.mapCpu (Cpu.latch fun l => { l with data := lo })).mapCpu (Cpu.setFlag .i true), false)
  | .vectorHi =>
    let (hi, s) := s.read B (s.cpu.latches.vector + 1)
    let target := mkWord hi s.cpu.latches.data
    (s.mapCpu (Cpu.jump target), true)

/-! ## `advance` (R193, R194) -/

/-- The sequence ends: Idle again, nothing in flight (R192). -/
def Cpu.toIdle (c : Cpu) : Cpu := { c with phase := .idle, micro := 0, latches := {} }

/-- The sequence goes on: the next cycle's index, and the phase of the cycle performed (R192, R197; DEDUCED, log entry 6). -/
def Cpu.goOn (ph : Phase) (c : Cpu) : Cpu := { c with phase := ph, micro := c.micro + 1 }

/-- The core halts (R191, R218), nothing in flight. -/
def Cpu.toHalted (c : Cpu) : Cpu := { c.toIdle with phase := .halted }

/-- One more cycle of an instruction's sequence. The last one retires the instruction (R196). -/
def instructionCycle {β : Type} (P : Params) (B : Bus β) (row : Row) (cy : Cycle) (s : Sys β) : Sys β :=
  match cy.perform P B row.mnemonic s with
  | (s, true) => (s.mapCpu Cpu.toIdle).mapCpu Cpu.retire
  | (s, false) => s.mapCpu (Cpu.goOn (phaseOf row.cls cy))

/-- One more cycle of the interrupt sequence, which retires nothing (R217, R233). -/
def interruptCycle {β : Type} (P : Params) (B : Bus β) (cy : Cycle) (s : Sys β) : Sys β :=
  match cy.perform P B .nop s with
  | (s, true) => s.mapCpu Cpu.toIdle
  | (s, false) => s.mapCpu (Cpu.goOn .handlingInterrupt)

/-- Cycle 1 of an instruction (R199): the opcode fetch and the table lookup. A miss freezes the core with the fault (R222; DEDUCED, log entry 8); a
JAM halts it (R218). -/
def startInstruction {β : Type} (P : Params) (B : Bus β) (s : Sys β) : CallResult × Sys β :=
  let addr := s.cpu.pc
  let s := (Cycle.fetchOpcode.perform P B .nop s).1
  let op := s.cpu.latches.opcode
  match P.table op with
  | none =>
    (.invalidOpcode op addr,
      s.mapCpu fun c => { c with phase := .fetching, latches := {}, invalid := some ⟨op, addr⟩ })
  | some row =>
    if row.cls = .halt then (.halted, s.mapCpu Cpu.toHalted) else (.ok, s.mapCpu (Cpu.goOn .fetching))

/-- Cycle 1 of the interrupt sequence with vector `v` (R217). -/
def startInterrupt {β : Type} (P : Params) (B : Bus β) (v : Word) (s : Sys β) : CallResult × Sys β :=
  (.ok, interruptCycle P B .dummyPc (s.mapCpu (Cpu.latch fun l => { l with vector := v })))

/-- The events that leave the ordinary flow of instructions (R221, D24). -/
inductive Event where
  | invalidOpcode | halt | brk | nmi | irq
deriving DecidableEq, Repr

/-- The boundary decision (R194, R230): which interrupt, if any, is taken before the next instruction. -/
def Cpu.boundaryEvent (c : Cpu) : Option Event :=
  if c.nmi then some .nmi else if c.irq && !c.flag .i then some .irq else none

/-- The event's latch is cleared when it is serviced; the other stays (R227, D4). -/
def Cpu.acknowledge (e : Event) (c : Cpu) : Cpu :=
  match e with
  | .nmi => { c with nmi := false }
  | .irq => { c with irq := false }
  | _ => c

/-- The vector of an interrupt (R57, R233). -/
def Event.vector : Event → Word
  | .nmi => Config.nmiVector
  | _ => Config.irqVector

/-- The sequence in flight, with the mnemonic and class its cycles need; none when the latched opcode has no entry. -/
def Cpu.inFlight (P : Params) (c : Cpu) : Option (Row × List Cycle) :=
  (P.table c.latches.opcode).map fun r => (r, sequenceOf r)

/-- `advance` once the call's cycle has been counted (R193, R194). -/
def advanceCounted {β : Type} (P : Params) (B : Bus β) (s : Sys β) : CallResult × Sys β :=
  match s.cpu.phase with
  | .halted => (.halted, s)
  | .idle =>
    match s.cpu.boundaryEvent with
    | some e => startInterrupt P B e.vector (s.mapCpu (Cpu.acknowledge e))
    | none => startInstruction P B s
  | .handlingInterrupt =>
    match interruptCycles[s.cpu.micro]? with
    | some cy => (.ok, interruptCycle P B cy s)
    | none => (.noSuchCycle, s)
  | .fetching | .resolvingAddress | .executing =>
    match s.cpu.inFlight P with
    | none => (.noSuchCycle, s)
    | some (row, cycles) =>
      match cycles[s.cpu.micro]? with
      | some cy => (.ok, instructionCycle P B row cy s)
      | none => (.noSuchCycle, s)

/-- `advance`, the host's "advance one cycle" (R193, R194, R222): a frozen core answers its fault again without running a cycle;
otherwise the call counts one cycle and performs it. -/
def advanceOn {β : Type} (P : Params) (B : Bus β) (s : Sys β) : CallResult × Sys β :=
  match s.cpu.invalid with
  | some f => (.invalidOpcode f.op f.addr, s)
  | none => advanceCounted P B (s.mapCpu Cpu.tick)

/-- `step` of R195 with at most `fuel` calls of `advance`: advance once, then until Idle; a halt or a fault ends it. Answers the
result, the number of cycles run and the state. -/
def stepOn {β : Type} (P : Params) (B : Bus β) : Nat → Sys β → CallResult × Nat × Sys β
  | 0, s => (.noSuchCycle, 0, s)
  | fuel + 1, s =>
    let (res, s') := advanceOn P B s
    let ran := s'.cpu.cycles - s.cpu.cycles
    if res = .ok ∧ s'.cpu.phase ≠ .idle then
      let (res', n, s'') := stepOn P B fuel s'
      (res', n + ran, s'')
    else (res, ran, s')

/-- No sequence has more than 8 cycles (R219; DEDUCED, log entry 16). -/
def maxCycles : Nat := 8

/-! ## The engine on the machine's own bus -/

/-- The machine as a core on a collaborator. -/
def State.toSys (s : State) : Sys Ram := ⟨s.cpu, s.bus⟩

/-- A core on the machine's own RAM as the machine. -/
def Sys.toState (s : Sys Ram) : State := ⟨s.cpu, s.bus⟩

/-- A host call's answer as an outcome of the machine. -/
def outcomeOf (r : CallResult) (s : Sys Ram) : Result :=
  match r with
  | .ok => .next s.toState
  | .halted => .next s.toState
  | .invalidOpcode op addr => .fault (.invalidOpcode op addr)
  | .noSuchCycle => .refused .noSuchCycle

/-- One cycle of the machine (R193). -/
def advance (s : State) : Result :=
  let (r, t) := advanceOn {} ramBus s.toSys
  outcomeOf r t

/-- One step of the machine, cycle by cycle (R195). -/
def stepByCycles (s : State) : Result :=
  let (r, _, t) := stepOn {} ramBus maxCycles s.toSys
  outcomeOf r t

end Sys2Proof.Machine
end

