-- ==== Sys2Proof/Machine/Boundary.lean ====
section
/-! DEFINITION. One step at an instruction boundary (R195, R230): the boundary decision, the interrupt sequence, or the fetch,
decode and meaning of the instruction at PC. -/

namespace Sys2Proof.Machine

/-- The three bytes at PC, PC + 1 and PC + 2 (R25: modulo 65536), looked at without a bus cycle: the meaning performs the
fetches. -/
def State.codeBytes (s : State) : List Byte :=
  [memRead s.bus.mem s.cpu.pc, memRead s.bus.mem (s.cpu.pc + 1), memRead s.bus.mem (s.cpu.pc + 2)]

/-- The instruction at PC (R66, R199). -/
def State.nextInstr (s : State) : Except DecodeError (Instr × List Byte) := decode s.codeBytes

/-- Run the instruction at PC. A table miss is InvalidOpcode (R222); the core's table has none (R77), and three bytes are never
too few. -/
def runInstruction (s : State) : Result :=
  match s.nextInstr with
  | .ok (i, _) => exec i s
  | .error _ => .fault (.invalidOpcode (memRead s.bus.mem s.cpu.pc) s.cpu.pc)

/-- One step at a boundary (R195, R230): an interrupt sequence alone, or one instruction. -/
def boundaryStep (s : State) : Result :=
  match s.cpu.boundaryEvent with
  | some e => .next ((s.mapCpu (Cpu.acknowledge e)).interruptSequence e.vector)
  | none => runInstruction s

/-- One step (R195): the frozen core answers its fault (R222), a halted core counts a cycle and does nothing else (R191), a core
at a boundary runs one sequence, and a core with a sequence in flight runs on to the boundary cycle by cycle. -/
def stepFrom (s : State) : Result :=
  match s.cpu.invalid with
  | some f => .fault (.invalidOpcode f.op f.addr)
  | none =>
    match s.cpu.phase with
    | .halted => .next (s.mapCpu Cpu.tick)
    | .idle => boundaryStep s
    | .fetching | .resolvingAddress | .executing | .handlingInterrupt => stepByCycles s

/-- Store bytes at consecutive addresses modulo 65536. -/
def storeBytes (m : Memory) (a : Word) : List Byte → Memory
  | [] => m
  | b :: rest => storeBytes (memWrite m a b) (a + 1) rest

/-- The core at a boundary where no interrupt is taken and nothing is frozen: what fetching at PC needs. A masked IRQ stays. -/
def Cpu.readyToFetch (c : Cpu) : Cpu :=
  { c.toIdle with nmi := false, irq := c.irq && c.flag .i, invalid := none }

/-- The state whose next step runs the instruction with bytes `bytes`: they are stored at PC. -/
def State.placeAtPc (s : State) (bytes : List Byte) : State where
  cpu := s.cpu.readyToFetch
  bus := { s.bus with mem := storeBytes s.bus.mem s.cpu.pc bytes }

end Sys2Proof.Machine
end

