-- ==== Sys2Proof/Machine/Step.lean ====
section
/-! DEFINITION. `step`, one step of the machine (R195), and the state in which the next step runs a given instruction. -/

namespace Sys2Proof.Machine

/-- One step: one instruction, one interrupt sequence, one halted cycle, or the rest of a sequence in flight (R195). -/
def step (s : State) : Host.Outcome State Fault Refusal := stepFrom s

/-- `s` with the instruction whose bits are `w` stored at PC and the core at a boundary with no interrupt to take (DESIGN CHOICE, log entry 10). -/
def State.withFetchWord (s : State) (nbits w : Nat) : State := s.placeAtPc (tableWordBytes nbits w)

end Sys2Proof.Machine
end

