-- ==== Sys2Proof/Machine/HostCalls.lean ====
section
/-! DEFINITION. What the outside world can do to the core: the host's calls (R193, R195, R224), its register writes (R43), its
writes of the interrupt lines (R226 to R228), and the clock cycle in which it writes the lines and advances the core (R60, R228).
Reset is `State.hostReset` in Machine/Ops.lean. -/

namespace Sys2Proof.Machine

/-! ## Calls (R224) -/

/-- `advance` as the host sees it: the answer and the state after it, the frozen state included (R222). -/
def State.advanceCall (s : State) : CallResult × State :=
  let (r, t) := advanceOn {} ramBus s.toSys
  (r, t.toState)

/-- `step` as the host sees it: the answer, the number of cycles taken and the state after it (R195). -/
def State.stepCall (s : State) : CallResult × Nat × State :=
  let (r, n, t) := stepOn {} ramBus maxCycles s.toSys
  (r, n, t.toState)

/-! ## Register writes for test setup (R43, D14, D27) -/

/-- A host write of the core, allowed only at an instruction boundary (R43). -/
def hostWrite (f : Cpu → Cpu) (s : State) : Result :=
  if s.cpu.phase = .idle then .next (s.mapCpu f) else .refused .hostWriteInFlight

/-- The host writes A. -/
def hostWriteA (v : Byte) (s : State) : Result := hostWrite (fun c => { c with a := v }) s

/-- The host writes X. -/
def hostWriteX (v : Byte) (s : State) : Result := hostWrite (fun c => { c with x := v }) s

/-- The host writes Y. -/
def hostWriteY (v : Byte) (s : State) : Result := hostWrite (fun c => { c with y := v }) s

/-- The host writes S. -/
def hostWriteS (v : Byte) (s : State) : Result := hostWrite (fun c => { c with s := v }) s

/-- The host writes PC. -/
def hostWritePc (v : Word) (s : State) : Result := hostWrite (fun c => { c with pc := v }) s

/-- The host writes P: bit 4 as given, bit 5 forced to 1 (R43, D27). -/
def hostWriteP (v : Byte) (s : State) : Result := hostWrite (fun c => { c with p := v ||| 0x20 }) s

/-! ## Interrupt lines (R226 to R228) -/

/-- What the host does to the two lines before a cycle: leave a line, or write it. -/
structure LineInput where
  nmi : Option Bool := none
  irq : Option Bool := none
deriving DecidableEq, Repr

/-- The host writes the request latches; the core itself never sets one (R227). -/
def Cpu.setLines (inp : LineInput) (c : Cpu) : Cpu := { c with nmi := inp.nmi.getD c.nmi, irq := inp.irq.getD c.irq }

/-- The host writes the request latches between two cycles. -/
def State.hostSetLines (inp : LineInput) (s : State) : State := s.mapCpu (Cpu.setLines inp)

/-- One clock cycle of the host: the lines first, then the core (R60, R228). -/
def clockCycle (inp : LineInput) (s : State) : Result := advance (s.hostSetLines inp)

/-- Clock cycles with the host's inputs, one an element, up to the first fault or refusal. -/
def clockCycles : List LineInput → State → Result
  | [], s => .next s
  | inp :: rest, s =>
    match clockCycle inp s with
    | .next t => clockCycles rest t
    | .fault r => .fault r
    | .refused r => .refused r

end Sys2Proof.Machine
end

