-- ==== Sys2Proof/Machine/Timing.lean ====
section
/-! DEFINITION. The cycle count of one instruction as R219 gives it from the table, for claims about the cycles a meaning spends
one bus access at a time. -/

namespace Sys2Proof.Machine

/-- The mnemonic of an instruction's table entry (the table is total, so the default is never taken). -/
def mnemonicOf (i : Instr) : Mnemonic := (i.row?.map (·.mnemonic)).getD .nop

/-- Whether a branch is taken (R132, R134 to R141). -/
def branchTaken (i : Instr) (s : State) : Bool :=
  s.cpu.flag (branchCondition (mnemonicOf i)).1 == (branchCondition (mnemonicOf i)).2

/-- What a branch costs beyond its base count: 1 taken within PCnext's page, 2 taken to another page (R132, R219). -/
def branchExtra (i : Instr) (s : State) : Nat :=
  let pcNext := s.cpu.pc + 2
  if branchTaken i s then (if samePage (branchTarget pcNext i.b1) pcNext then 1 else 2) else 0

/-- The cycle count of one instruction (R219): the base count, 1 more when the boundary flag is set and indexing crosses a page
(R93), and a branch's extra cycles. -/
def cycleCount (i : Instr) (s : State) : Nat :=
  match i.row? with
  | none => 0
  | some r =>
    r.cycles + (if r.boundary && (operandOf i s).crossed then 1 else 0) + (if r.mode = .relative then branchExtra i s else 0)

end Sys2Proof.Machine
end

