-- ==== Sys2Proof/Safety.lean ====
section
/-! DEFINITION. What a sound state is, in the terms the claims use: canonical memory, the unused status bit at 1, and an engine
whose phase, micro-step index and latches agree. Every state a run reaches is sound; nothing in the machine is unsafe beyond
that, for the core has no fault a program can raise (R221) and no privilege (R237). -/

namespace Sys2Proof.Machine

/-- Nothing is in flight: the index and every latch are 0 (R242). -/
abbrev Cpu.AtRest (c : Cpu) : Prop := c.micro = 0 ∧ c.latches = {}

/-- An interrupt sequence is in flight at a cycle it has, with one of the two vectors (R217). -/
abbrev Cpu.InInterrupt (c : Cpu) : Prop :=
  1 ≤ c.micro ∧ c.micro < interruptCycles.length ∧
    (c.latches.vector = Config.nmiVector ∨ c.latches.vector = Config.irqVector)

/-- The phase of the cycle performed last, for the instruction with latched opcode (R192). -/
def Cpu.lastPhase (c : Cpu) : Option Phase :=
  match c.inFlight {} with
  | none => none
  | some (row, cycles) => cycles[c.micro - 1]?.map (phaseOf row.cls)

/-- The number of cycles of the sequence of the latched opcode, 0 where there is none. -/
def Cpu.flightLength (c : Cpu) : Nat :=
  match c.inFlight {} with
  | none => 0
  | some (_, cycles) => cycles.length

/-- An instruction's sequence is in flight at a cycle it has, in the phase of the cycle performed last (R192, R197). -/
abbrev Cpu.InInstruction (c : Cpu) : Prop :=
  1 ≤ c.micro ∧ c.micro < c.flightLength ∧ c.lastPhase = some c.phase

/-- The phase says what is in flight (R192). -/
abbrev Cpu.EngineOk (c : Cpu) : Prop :=
  (c.phase = .idle ∨ c.phase = .halted → c.AtRest) ∧
    (c.phase = .handlingInterrupt → c.InInterrupt) ∧
    (c.phase = .fetching ∨ c.phase = .resolvingAddress ∨ c.phase = .executing → c.InInstruction)

/-- A sound core: bit 5 of P is 1 (R35), the engine agrees with itself, and no fault has frozen it (R77: none can). -/
abbrev Cpu.Sound (c : Cpu) : Prop := c.flag .u = true ∧ c.EngineOk ∧ c.invalid = none

/-- A sound machine: a sound core and memory in canonical form. -/
abbrev State.Sound (s : State) : Prop := s.cpu.Sound ∧ Memory.wf s.bus.mem = true

/-- At an instruction boundary with nothing frozen, so that the next step is an instruction or an interrupt sequence (R230). -/
abbrev State.AtBoundary (s : State) : Prop := s.cpu.phase = .idle ∧ s.cpu.invalid = none

end Sys2Proof.Machine
end

