-- ==== Sys2Proof/Machine/Claims.lean ====
section
/-! DEFINITION. The vocabulary of the claims: flags written by a rule, the core past an instruction, what it is for an instruction
to complete, to store a byte, to make a list of bus accesses, and the cycle table of R219. No part of the machine reads it. -/

namespace Sys2Proof.Machine

/-! ## Flags -/

/-- A status byte with several flags written (R29). -/
def setFlags (p : Byte) (l : List (Flag × Bool)) : Byte := l.foldl (fun p fv => putFlag p fv.1 fv.2) p

/-- The writes of `setNZ(v)` (R15). -/
def nz (v : Byte) : List (Flag × Bool) := [(.z, v == 0), (.n, v.getLsbD 7)]

/-- The writes of an addition or subtraction (R110, R111). -/
def aluFlags (r : AluResult) : List (Flag × Bool) := [(.c, r.c), (.v, r.v), (.z, r.z), (.n, r.n)]

/-- The writes of `Compare(r, m)` (R109): `t = r - m` as an integer, `C <- r >= m`, `Z <- r = m`, `N <- u8(t)[7]`. -/
def compareFlags (r m : Byte) : List (Flag × Bool) :=
  [(.c, decide (m.toNat ≤ r.toNat)), (.z, decide (r = m)), (.n, (BitVec.ofInt 8 ((r.toNat : Int) - m.toNat)).getLsbD 7)]

/-! ## Completion -/

/-- The operand byte M (R81). -/
def operandByte (i : Instr) (s : State) : Byte := (operandOf i s).value s

/-- Core `c` with PC after the bytes of `i`, the cycles of `i` counted and `i` retired (R24, R219, R196). -/
def past (i : Instr) (s : State) (c : Cpu) : Cpu :=
  { c with
    pc := s.cpu.pc + BitVec.ofNat 16 i.length
    cycles := s.cpu.cycles + cycleCount i s
    instructions := s.cpu.instructions + 1 }

/-- `i` answers a next state with core `c` and every byte of memory as before. -/
def Completes (i : Instr) (s : State) (c : Cpu) : Prop :=
  ∃ t, exec i s = .next t ∧ t.cpu = c ∧ ∀ b, memRead t.bus.mem b = memRead s.bus.mem b

/-- `i` answers a next state with core `c`, its last bus access the write of `v` at `ea`, and every other byte as before. -/
def StoresByte (i : Instr) (s : State) (c : Cpu) (ea : Word) (v : Byte) : Prop :=
  ∃ t, exec i s = .next t ∧ t.cpu = c ∧ (∃ l, t.bus.log = .write ea v :: l) ∧ memRead t.bus.mem ea = v ∧
    ∀ b, b ≠ ea → memRead t.bus.mem b = memRead s.bus.mem b

/-- `i` answers a next state with core `c`, its last bus accesses the read of `m` at `ea`, the write of `m` back and the write of
`r` (R209), and every other byte as before. -/
def ModifiesByte (i : Instr) (s : State) (c : Cpu) (ea : Word) (m r : Byte) : Prop :=
  ∃ t, exec i s = .next t ∧ t.cpu = c ∧ (∃ l, t.bus.log = .write ea r :: .write ea m :: .read ea m :: l) ∧
    memRead t.bus.mem ea = r ∧ ∀ b, b ≠ ea → memRead t.bus.mem b = memRead s.bus.mem b

/-- A read-modify-write instruction whose result and core are functions of the byte at its address. -/
def ModifiesOperand (i : Instr) (s : State) (result : Byte → Byte) (core : Byte → Cpu) : Prop :=
  ∃ ea, (operandOf i s).ea? = some ea ∧
    ModifiesByte i s (past i s (core (memRead s.bus.mem ea))) ea (memRead s.bus.mem ea) (result (memRead s.bus.mem ea))

/-- A store at the resolver's address. -/
def StoresOperand (i : Instr) (s : State) (v : Byte) : Prop :=
  ∃ ea, (operandOf i s).ea? = some ea ∧ StoresByte i s (past i s s.cpu) ea v

/-- A branch on flag `f` having value `want` (R132), with its 2, 3 or 4 cycles. -/
def BranchesOn (f : Flag) (want : Bool) (i : Instr) (s : State) : Prop :=
  let next := s.cpu.pc + 2
  let target := next + i.b1.signExtend 16
  let taken := s.cpu.flag f = want
  Completes i s
    { s.cpu with
      pc := if taken then target else next
      cycles := s.cpu.cycles + (if taken then (if hiByte target = hiByte next then 3 else 4) else 2)
      instructions := s.cpu.instructions + 1 }

/-- Memory `m'` is `m` with `hi`, `lo` and `st` pushed in that order from stack pointer `sp`, and no other byte changed. -/
def PushedThree (m m' : Memory) (sp hi lo st : Byte) : Prop :=
  memRead m' (stackAddr sp) = hi ∧ memRead m' (stackAddr (sp - 1)) = lo ∧ memRead m' (stackAddr (sp - 2)) = st ∧
    ∀ b, b ≠ stackAddr sp → b ≠ stackAddr (sp - 1) → b ≠ stackAddr (sp - 2) → memRead m' b = memRead m b

/-! ## Encodings -/

/-- The opcodes whose entry has this mnemonic and illegal flag, in order, each with its mode, base cycles and boundary flag. -/
def forms (mn : Mnemonic) (illegal : Bool) : List (Byte × Mode × Nat × Bool) :=
  (List.range 256).filterMap fun n =>
    match opcodeTable (BitVec.ofNat 8 n) with
    | some r =>
      if r.mnemonic = mn ∧ r.illegal = illegal then some (BitVec.ofNat 8 n, r.mode, r.cycles, r.boundary) else none
    | none => none

/-- The cycle table of R219, row the high nibble: the base counts, 2 for a branch not taken and 1 for JAM. -/
def cycleGrid : List (List Nat) := [
  [7, 6, 1, 8, 3, 3, 5, 5, 3, 2, 2, 2, 4, 4, 6, 6],
  [2, 5, 1, 8, 4, 4, 6, 6, 2, 4, 2, 7, 4, 4, 7, 7],
  [6, 6, 1, 8, 3, 3, 5, 5, 4, 2, 2, 2, 4, 4, 6, 6],
  [2, 5, 1, 8, 4, 4, 6, 6, 2, 4, 2, 7, 4, 4, 7, 7],
  [6, 6, 1, 8, 3, 3, 5, 5, 3, 2, 2, 2, 3, 4, 6, 6],
  [2, 5, 1, 8, 4, 4, 6, 6, 2, 4, 2, 7, 4, 4, 7, 7],
  [6, 6, 1, 8, 3, 3, 5, 5, 4, 2, 2, 2, 5, 4, 6, 6],
  [2, 5, 1, 8, 4, 4, 6, 6, 2, 4, 2, 7, 4, 4, 7, 7],
  [2, 6, 2, 6, 3, 3, 3, 3, 2, 2, 2, 2, 4, 4, 4, 4],
  [2, 6, 1, 6, 4, 4, 4, 4, 2, 5, 2, 5, 5, 5, 5, 5],
  [2, 6, 2, 6, 3, 3, 3, 3, 2, 2, 2, 2, 4, 4, 4, 4],
  [2, 5, 1, 5, 4, 4, 4, 4, 2, 4, 2, 4, 4, 4, 4, 4],
  [2, 6, 2, 8, 3, 3, 5, 5, 2, 2, 2, 2, 4, 4, 6, 6],
  [2, 5, 1, 8, 4, 4, 6, 6, 2, 4, 2, 7, 4, 4, 7, 7],
  [2, 6, 2, 8, 3, 3, 5, 5, 2, 2, 2, 2, 4, 4, 6, 6],
  [2, 5, 1, 8, 4, 4, 6, 6, 2, 4, 2, 7, 4, 4, 7, 7]]

/-- The opcodes whose boundary flag is set (R74). -/
def boundaryOpcodes : List Byte :=
  [0x11, 0x19, 0x1C, 0x1D, 0x31, 0x39, 0x3C, 0x3D, 0x51, 0x59, 0x5C, 0x5D, 0x71, 0x79, 0x7C, 0x7D, 0xB1, 0xB3, 0xB9, 0xBB, 0xBC,
    0xBD, 0xBE, 0xBF, 0xD1, 0xD9, 0xDC, 0xDD, 0xF1, 0xF9, 0xFC, 0xFD]

/-! ## Bus accesses -/

/-- The read of address `a` with the byte memory holds in `s`. -/
def rd (s : State) (a : Word) : BusEvent := .read a (memRead s.bus.mem a)

/-- From `s` to `t` the bus sees exactly the accesses `l`, in this order. -/
def Accessed (s t : State) (l : List BusEvent) : Prop := t.bus.log = l.reverse ++ s.bus.log

/-- `i` answers a next state after exactly the bus accesses `l`, in this order. -/
def Accesses (i : Instr) (s : State) (l : List BusEvent) : Prop := ∃ t, exec i s = .next t ∧ Accessed s t l

/-- The fetches of the opcode and one operand byte (R198, R199). -/
def fetch2 (s : State) : List BusEvent := [rd s s.cpu.pc, rd s (s.cpu.pc + 1)]

/-- The fetches of the opcode and two operand bytes (R198, R199). -/
def fetch3 (s : State) : List BusEvent := [rd s s.cpu.pc, rd s (s.cpu.pc + 1), rd s (s.cpu.pc + 2)]

/-- The bus write of a write-class instruction in `s` whose uncorrected and corrected addresses are `ea0` and `ea`: its byte at
`ea`, or for SHA, SHX, SHY and TAS the value and the address of R185 (decision D12). -/
def storeEvent (i : Instr) (s : State) (ea0 ea : Word) (crossed : Bool) : BusEvent :=
  match unstableEffect (mnemonicOf i) with
  | none => .write ea (writeEffect (mnemonicOf i) s.cpu)
  | some regs =>
    let value := shValue (regs s.cpu).1 ea0
    .write (shAddr value ea crossed) value

/-- The three data accesses of a read-modify-write instruction in `s` at `ea` (R209): read, write of the old byte, write of its
result. -/
def modifyEvents (i : Instr) (s : State) (ea : Word) : List BusEvent :=
  let m := memRead s.bus.mem ea
  [.read ea m, .write ea m, .write ea (modifyEffect (mnemonicOf i) m s.cpu).1]

/-- After the accesses `pre`, a read, write or read-modify-write instruction makes its class's accesses at `ea` (R202 to R208). -/
def DataAccesses (i : Instr) (s : State) (pre : List BusEvent) (ea : Word) : Prop :=
  (i.cls = .read → Accesses i s (pre ++ [rd s ea])) ∧
    (i.cls = .write → Accesses i s (pre ++ [.write ea (writeEffect (mnemonicOf i) s.cpu)])) ∧
    (i.cls = .rmw → Accesses i s (pre ++ modifyEvents i s ea))

/-- The accesses of a mode that indexes the base `base` by `idx`, after the accesses `pre` (R205, R206, R208): the uncorrected
address is read first; it is the data read of a read-class instruction unless a page was crossed. -/
def IndexedAccesses (i : Instr) (s : State) (pre : List BusEvent) (base : Word) (idx : Byte) : Prop :=
  let ea0 := uncorrected base idx
  let ea := baseIndexed base idx
  let crossed := pageCrossed base idx
  (i.cls = .read → Accesses i s (pre ++ rd s ea0 :: if crossed then [rd s ea] else [])) ∧
    (i.cls = .write → Accesses i s (pre ++ [rd s ea0, storeEvent i s ea0 ea crossed])) ∧
    (i.cls = .rmw → Accesses i s (pre ++ rd s ea0 :: modifyEvents i s ea))

/-! ## Decimal numbers -/

/-- A byte whose two nibbles are decimal digits. -/
abbrev IsBcd (b : Byte) : Prop := b.toNat / 16 ≤ 9 ∧ b.toNat % 16 ≤ 9

/-- The number a packed decimal byte stands for. -/
def bcdValue (b : Byte) : Nat := b.toNat / 16 * 10 + b.toNat % 16

/-! ## Noninterference -/

/-- The machine with status bit 4 flipped. -/
def flipBreak (s : State) : State := { s with cpu := { s.cpu with p := s.cpu.p ^^^ 0x10 } }

/-- Two machines that differ at most in the counters and in the record of the bus. -/
def SameButCounters (s t : State) : Prop :=
  ({ s.cpu with cycles := 0, instructions := 0 } : Cpu) = { t.cpu with cycles := 0, instructions := 0 } ∧ s.bus.mem = t.bus.mem

end Sys2Proof.Machine
end

