-- ==== Sys2Proof/Certificates/Slice0/Obligations.lean ====
section
/-! DEFINITION. The statements for the provers: what the spec's numbered rules say each instruction, the cycle engine, the interrupt
and reset mechanisms, the decoder and the memory do, and the invariants of the whole machine. -/

open Sys2Proof Sys2Proof.Machine

/-- O1. For every form of LDA, LDX, LDY (the opcodes, modes, base cycles and boundary flags the rules list) and every state, exec
answers a next state in which the register holds the operand byte, Z says whether it is 0, N is its bit 7, PC is past the
instruction, its cycles are counted, it is retired, every other register, flag and piece of core state is as before, and every
byte of memory reads as before. -/
def Obligations.Loads : Prop :=
  forms .lda false = [(0xA1, .indirectX, 6, false), (0xA5, .zeropage, 3, false), (0xA9, .immediate, 2, false),
      (0xAD, .absolute, 4, false), (0xB1, .indirectY, 5, true), (0xB5, .zeropageX, 4, false),
      (0xB9, .absoluteY, 4, true), (0xBD, .absoluteX, 4, true)] ∧
  forms .ldx false = [(0xA2, .immediate, 2, false), (0xA6, .zeropage, 3, false), (0xAE, .absolute, 4, false),
      (0xB6, .zeropageY, 4, false), (0xBE, .absoluteY, 4, true)] ∧
  forms .ldy false = [(0xA0, .immediate, 2, false), (0xA4, .zeropage, 3, false), (0xAC, .absolute, 4, false),
      (0xB4, .zeropageX, 4, false), (0xBC, .absoluteX, 4, true)] ∧
  ∀ (i : Instr) (s : State), i.WellFormed →
    (i.hasMnemonic .lda = true →
      Completes i s (past i s { s.cpu with a := operandByte i s, p := setFlags s.cpu.p (nz (operandByte i s)) })) ∧
    (i.hasMnemonic .ldx = true →
      Completes i s (past i s { s.cpu with x := operandByte i s, p := setFlags s.cpu.p (nz (operandByte i s)) })) ∧
    (i.hasMnemonic .ldy = true →
      Completes i s (past i s { s.cpu with y := operandByte i s, p := setFlags s.cpu.p (nz (operandByte i s)) }))

/-- O2. For every form of STA, STX, STY, SAX and every state with canonical memory, exec answers a next state in which the byte at
the effective address is A, X, Y or A & X, that write is the last bus access, every other address reads as before, and of the
core only PC and the counters change. -/
def Obligations.Stores : Prop :=
  forms .sta false = [(0x81, .indirectX, 6, false), (0x85, .zeropage, 3, false), (0x8D, .absolute, 4, false),
      (0x91, .indirectY, 6, false), (0x95, .zeropageX, 4, false), (0x99, .absoluteY, 5, false),
      (0x9D, .absoluteX, 5, false)] ∧
  forms .stx false = [(0x86, .zeropage, 3, false), (0x8E, .absolute, 4, false), (0x96, .zeropageY, 4, false)] ∧
  forms .sty false = [(0x84, .zeropage, 3, false), (0x8C, .absolute, 4, false), (0x94, .zeropageX, 4, false)] ∧
  forms .sax true = [(0x83, .indirectX, 6, false), (0x87, .zeropage, 3, false), (0x8F, .absolute, 4, false),
      (0x97, .zeropageY, 4, false)] ∧
  ∀ (i : Instr) (s : State), i.WellFormed → Memory.wf s.bus.mem = true →
    (i.hasMnemonic .sta = true → StoresOperand i s s.cpu.a) ∧
    (i.hasMnemonic .stx = true → StoresOperand i s s.cpu.x) ∧
    (i.hasMnemonic .sty = true → StoresOperand i s s.cpu.y) ∧
    (i.hasMnemonic .sax = true → StoresOperand i s (s.cpu.a &&& s.cpu.x))

/-- O3. For every form of ADC and SBC, the undocumented 0xEB included, and every state, exec answers a next state in which A, C,
V, Z and N are those of AddBin or SubBin when D is 0 and of AddDec or SubDec when D is 1; every other register and flag and
every byte of memory is as before. -/
def Obligations.AddWithCarryAndSubtract : Prop :=
  forms .adc false = [(0x61, .indirectX, 6, false), (0x65, .zeropage, 3, false), (0x69, .immediate, 2, false),
      (0x6D, .absolute, 4, false), (0x71, .indirectY, 5, true), (0x75, .zeropageX, 4, false),
      (0x79, .absoluteY, 4, true), (0x7D, .absoluteX, 4, true)] ∧
  forms .sbc false = [(0xE1, .indirectX, 6, false), (0xE5, .zeropage, 3, false), (0xE9, .immediate, 2, false),
      (0xED, .absolute, 4, false), (0xF1, .indirectY, 5, true), (0xF5, .zeropageX, 4, false),
      (0xF9, .absoluteY, 4, true), (0xFD, .absoluteX, 4, true)] ∧
  forms .sbc true = [(0xEB, .immediate, 2, false)] ∧
  ∀ (i : Instr) (s : State), i.WellFormed →
    (i.hasMnemonic .adc = true →
      let r := if s.cpu.flag .d = true then addDec s.cpu.a (operandByte i s) (s.cpu.flag .c)
        else addBin s.cpu.a (operandByte i s) (s.cpu.flag .c)
      Completes i s (past i s { s.cpu with a := r.value, p := setFlags s.cpu.p (aluFlags r) })) ∧
    (i.hasMnemonic .sbc = true →
      let r := if s.cpu.flag .d = true then subDec s.cpu.a (operandByte i s) (s.cpu.flag .c)
        else subBin s.cpu.a (operandByte i s) (s.cpu.flag .c)
      Completes i s (past i s { s.cpu with a := r.value, p := setFlags s.cpu.p (aluFlags r) }))

/-- O4. For every form of CMP, CPX, CPY and every state, exec answers a next state in which C says that the register is at least
the operand, Z that they are equal, N is bit 7 of the difference reduced to a byte; no register, no other flag and no byte of
memory changes, and D plays no part. -/
def Obligations.Compares : Prop :=
  forms .cmp false = [(0xC1, .indirectX, 6, false), (0xC5, .zeropage, 3, false), (0xC9, .immediate, 2, false),
      (0xCD, .absolute, 4, false), (0xD1, .indirectY, 5, true), (0xD5, .zeropageX, 4, false),
      (0xD9, .absoluteY, 4, true), (0xDD, .absoluteX, 4, true)] ∧
  forms .cpx false = [(0xE0, .immediate, 2, false), (0xE4, .zeropage, 3, false), (0xEC, .absolute, 4, false)] ∧
  forms .cpy false = [(0xC0, .immediate, 2, false), (0xC4, .zeropage, 3, false), (0xCC, .absolute, 4, false)] ∧
  ∀ (i : Instr) (s : State), i.WellFormed →
    (i.hasMnemonic .cmp = true →
      Completes i s (past i s { s.cpu with p := setFlags s.cpu.p (compareFlags s.cpu.a (operandByte i s)) })) ∧
    (i.hasMnemonic .cpx = true →
      Completes i s (past i s { s.cpu with p := setFlags s.cpu.p (compareFlags s.cpu.x (operandByte i s)) })) ∧
    (i.hasMnemonic .cpy = true →
      Completes i s (past i s { s.cpu with p := setFlags s.cpu.p (compareFlags s.cpu.y (operandByte i s)) }))

/-- O5. For every form of INC and DEC and every state with canonical memory, exec answers a next state in which the byte at the
effective address is one more or one less modulo 256, the last three bus accesses are the read of the old byte, its write back
and the write of the result, N and Z are set from the result, no other flag or register changes, and every other address reads
as before. -/
def Obligations.IncrementAndDecrementMemory : Prop :=
  forms .inc false = [(0xE6, .zeropage, 5, false), (0xEE, .absolute, 6, false), (0xF6, .zeropageX, 6, false),
      (0xFE, .absoluteX, 7, false)] ∧
  forms .dec false = [(0xC6, .zeropage, 5, false), (0xCE, .absolute, 6, false), (0xD6, .zeropageX, 6, false),
      (0xDE, .absoluteX, 7, false)] ∧
  ∀ (i : Instr) (s : State), i.WellFormed → Memory.wf s.bus.mem = true →
    (i.hasMnemonic .inc = true →
      ModifiesOperand i s (fun m => m + 1) (fun m => { s.cpu with p := setFlags s.cpu.p (nz (m + 1)) })) ∧
    (i.hasMnemonic .dec = true →
      ModifiesOperand i s (fun m => m - 1) (fun m => { s.cpu with p := setFlags s.cpu.p (nz (m - 1)) }))

/-- O6. For INX, INY, DEX, DEY and every state, exec answers a next state in which the index register is one more or one less
modulo 256, N and Z are set from it, and no other register, flag or byte of memory changes. -/
def Obligations.IncrementAndDecrementIndex : Prop :=
  forms .inx false = [(0xE8, .implied, 2, false)] ∧
  forms .iny false = [(0xC8, .implied, 2, false)] ∧
  forms .dex false = [(0xCA, .implied, 2, false)] ∧
  forms .dey false = [(0x88, .implied, 2, false)] ∧
  ∀ (i : Instr) (s : State), i.WellFormed →
    (i.hasMnemonic .inx = true →
      Completes i s (past i s { s.cpu with x := s.cpu.x + 1, p := setFlags s.cpu.p (nz (s.cpu.x + 1)) })) ∧
    (i.hasMnemonic .iny = true →
      Completes i s (past i s { s.cpu with y := s.cpu.y + 1, p := setFlags s.cpu.p (nz (s.cpu.y + 1)) })) ∧
    (i.hasMnemonic .dex = true →
      Completes i s (past i s { s.cpu with x := s.cpu.x - 1, p := setFlags s.cpu.p (nz (s.cpu.x - 1)) })) ∧
    (i.hasMnemonic .dey = true →
      Completes i s (past i s { s.cpu with y := s.cpu.y - 1, p := setFlags s.cpu.p (nz (s.cpu.y - 1)) }))

/-- O7. For each transfer and every state, exec answers a next state in which the destination register holds the source register,
N and Z are set from it (TXS writes no flag), and no other register, flag or byte of memory changes. -/
def Obligations.Transfers : Prop :=
  forms .tax false = [(0xAA, .implied, 2, false)] ∧
  forms .tay false = [(0xA8, .implied, 2, false)] ∧
  forms .txa false = [(0x8A, .implied, 2, false)] ∧
  forms .tya false = [(0x98, .implied, 2, false)] ∧
  forms .tsx false = [(0xBA, .implied, 2, false)] ∧
  forms .txs false = [(0x9A, .implied, 2, false)] ∧
  ∀ (i : Instr) (s : State), i.WellFormed →
    (i.hasMnemonic .tax = true →
      Completes i s (past i s { s.cpu with x := s.cpu.a, p := setFlags s.cpu.p (nz s.cpu.a) })) ∧
    (i.hasMnemonic .tay = true →
      Completes i s (past i s { s.cpu with y := s.cpu.a, p := setFlags s.cpu.p (nz s.cpu.a) })) ∧
    (i.hasMnemonic .txa = true →
      Completes i s (past i s { s.cpu with a := s.cpu.x, p := setFlags s.cpu.p (nz s.cpu.x) })) ∧
    (i.hasMnemonic .tya = true →
      Completes i s (past i s { s.cpu with a := s.cpu.y, p := setFlags s.cpu.p (nz s.cpu.y) })) ∧
    (i.hasMnemonic .tsx = true →
      Completes i s (past i s { s.cpu with x := s.cpu.s, p := setFlags s.cpu.p (nz s.cpu.s) })) ∧
    (i.hasMnemonic .txs = true → Completes i s (past i s { s.cpu with s := s.cpu.x }))

/-- O8. For each flag instruction and every state, exec answers a next state in which its flag has its value and no other flag, no
register and no byte of memory changes. (Cited are the rules of CLC, SEC, CLD, SED and CLV; CLI and SEI are stated too, their
rules having a clause on the boundary that is stated elsewhere.) -/
def Obligations.FlagInstructions : Prop :=
  forms .clc false = [(0x18, .implied, 2, false)] ∧
  forms .sec false = [(0x38, .implied, 2, false)] ∧
  forms .cli false = [(0x58, .implied, 2, false)] ∧
  forms .sei false = [(0x78, .implied, 2, false)] ∧
  forms .cld false = [(0xD8, .implied, 2, false)] ∧
  forms .sed false = [(0xF8, .implied, 2, false)] ∧
  forms .clv false = [(0xB8, .implied, 2, false)] ∧
  ∀ (i : Instr) (s : State), i.WellFormed →
    (i.hasMnemonic .clc = true → Completes i s (past i s { s.cpu with p := putFlag s.cpu.p .c false })) ∧
    (i.hasMnemonic .sec = true → Completes i s (past i s { s.cpu with p := putFlag s.cpu.p .c true })) ∧
    (i.hasMnemonic .cli = true → Completes i s (past i s { s.cpu with p := putFlag s.cpu.p .i false })) ∧
    (i.hasMnemonic .sei = true → Completes i s (past i s { s.cpu with p := putFlag s.cpu.p .i true })) ∧
    (i.hasMnemonic .cld = true → Completes i s (past i s { s.cpu with p := putFlag s.cpu.p .d false })) ∧
    (i.hasMnemonic .sed = true → Completes i s (past i s { s.cpu with p := putFlag s.cpu.p .d true })) ∧
    (i.hasMnemonic .clv = true → Completes i s (past i s { s.cpu with p := putFlag s.cpu.p .v false }))

/-- O9. For every form of AND, ORA, EOR, BIT and every state, exec answers a next state in which A is the bitwise result with N
and Z set from it, or, for BIT, Z says that A & M is 0, V is bit 6 and N bit 7 of the operand; no other register, flag or byte
of memory changes. -/
def Obligations.LogicAndBit : Prop :=
  forms .and false = [(0x21, .indirectX, 6, false), (0x25, .zeropage, 3, false), (0x29, .immediate, 2, false),
      (0x2D, .absolute, 4, false), (0x31, .indirectY, 5, true), (0x35, .zeropageX, 4, false),
      (0x39, .absoluteY, 4, true), (0x3D, .absoluteX, 4, true)] ∧
  forms .ora false = [(0x01, .indirectX, 6, false), (0x05, .zeropage, 3, false), (0x09, .immediate, 2, false),
      (0x0D, .absolute, 4, false), (0x11, .indirectY, 5, true), (0x15, .zeropageX, 4, false),
      (0x19, .absoluteY, 4, true), (0x1D, .absoluteX, 4, true)] ∧
  forms .eor false = [(0x41, .indirectX, 6, false), (0x45, .zeropage, 3, false), (0x49, .immediate, 2, false),
      (0x4D, .absolute, 4, false), (0x51, .indirectY, 5, true), (0x55, .zeropageX, 4, false),
      (0x59, .absoluteY, 4, true), (0x5D, .absoluteX, 4, true)] ∧
  forms .bit false = [(0x24, .zeropage, 3, false), (0x2C, .absolute, 4, false)] ∧
  ∀ (i : Instr) (s : State), i.WellFormed →
    let m := operandByte i s
    (i.hasMnemonic .and = true →
      Completes i s (past i s { s.cpu with a := s.cpu.a &&& m, p := setFlags s.cpu.p (nz (s.cpu.a &&& m)) })) ∧
    (i.hasMnemonic .ora = true →
      Completes i s (past i s { s.cpu with a := s.cpu.a ||| m, p := setFlags s.cpu.p (nz (s.cpu.a ||| m)) })) ∧
    (i.hasMnemonic .eor = true →
      Completes i s (past i s { s.cpu with a := s.cpu.a ^^^ m, p := setFlags s.cpu.p (nz (s.cpu.a ^^^ m)) })) ∧
    (i.hasMnemonic .bit = true →
      Completes i s (past i s { s.cpu with
        p := setFlags s.cpu.p [(.z, s.cpu.a &&& m == 0), (.v, m.getLsbD 6), (.n, m.getLsbD 7)] }))

/-- O10. For every form of ASL, LSR, ROL, ROR and every state (with canonical memory), exec answers a next state in which A, or
the byte at the effective address, is the shifted byte, C the bit shifted out, N and Z set from the result; on memory the last
three bus accesses are the read, the write of the old byte and the write of the result; nothing else changes. -/
def Obligations.Shifts : Prop :=
  forms .asl false = [(0x06, .zeropage, 5, false), (0x0A, .accumulator, 2, false), (0x0E, .absolute, 6, false),
      (0x16, .zeropageX, 6, false), (0x1E, .absoluteX, 7, false)] ∧
  forms .lsr false = [(0x46, .zeropage, 5, false), (0x4A, .accumulator, 2, false), (0x4E, .absolute, 6, false),
      (0x56, .zeropageX, 6, false), (0x5E, .absoluteX, 7, false)] ∧
  forms .rol false = [(0x26, .zeropage, 5, false), (0x2A, .accumulator, 2, false), (0x2E, .absolute, 6, false),
      (0x36, .zeropageX, 6, false), (0x3E, .absoluteX, 7, false)] ∧
  forms .ror false = [(0x66, .zeropage, 5, false), (0x6A, .accumulator, 2, false), (0x6E, .absolute, 6, false),
      (0x76, .zeropageX, 6, false), (0x7E, .absoluteX, 7, false)] ∧
  ∀ (i : Instr) (s : State), i.WellFormed → Memory.wf s.bus.mem = true →
    let shift := fun (f : Byte → Byte × Bool) =>
      (i.mode = .accumulator → Completes i s (past i s { s.cpu with
        a := (f s.cpu.a).1, p := setFlags s.cpu.p ((.c, (f s.cpu.a).2) :: nz (f s.cpu.a).1) })) ∧
      (i.mode ≠ .accumulator → ModifiesOperand i s (fun m => (f m).1) (fun m => { s.cpu with
        p := setFlags s.cpu.p ((.c, (f m).2) :: nz (f m).1) }))
    (i.hasMnemonic .asl = true → shift asl) ∧
    (i.hasMnemonic .lsr = true → shift lsr) ∧
    (i.hasMnemonic .rol = true → shift fun m => rol m (s.cpu.flag .c)) ∧
    (i.hasMnemonic .ror = true → shift fun m => ror m (s.cpu.flag .c))

/-- O11. For each branch and every state, exec answers a next state in which PC is PCnext, or PCnext plus the signed offset modulo
65536 when the tested flag has the wanted value, the cycles are 2 not taken, 3 taken within the page of PCnext and 4 taken to
another page, and nothing else in the core or in memory changes. -/
def Obligations.Branches : Prop :=
  forms .bpl false = [(0x10, .relative, 2, false)] ∧
  forms .bmi false = [(0x30, .relative, 2, false)] ∧
  forms .bvc false = [(0x50, .relative, 2, false)] ∧
  forms .bvs false = [(0x70, .relative, 2, false)] ∧
  forms .bcc false = [(0x90, .relative, 2, false)] ∧
  forms .bcs false = [(0xB0, .relative, 2, false)] ∧
  forms .bne false = [(0xD0, .relative, 2, false)] ∧
  forms .beq false = [(0xF0, .relative, 2, false)] ∧
  ∀ (i : Instr) (s : State), i.WellFormed →
    (i.hasMnemonic .bpl = true → BranchesOn .n false i s) ∧ (i.hasMnemonic .bmi = true → BranchesOn .n true i s) ∧
    (i.hasMnemonic .bvc = true → BranchesOn .v false i s) ∧ (i.hasMnemonic .bvs = true → BranchesOn .v true i s) ∧
    (i.hasMnemonic .bcc = true → BranchesOn .c false i s) ∧ (i.hasMnemonic .bcs = true → BranchesOn .c true i s) ∧
    (i.hasMnemonic .bne = true → BranchesOn .z false i s) ∧ (i.hasMnemonic .beq = true → BranchesOn .z true i s)

/-- O12. For JMP absolute and JMP indirect and every state, exec answers a next state in which PC is the operand word, or the word
whose low byte is at the pointer and whose high byte is at the pointer plus one within the pointer's page; 3 and 5 cycles;
nothing else changes. -/
def Obligations.Jumps : Prop :=
  forms .jmp false = [(0x4C, .absolute, 3, false), (0x6C, .indirect, 5, false)] ∧
  ∀ (w : Word) (s : State),
    Completes (.jmpAbs w) s { s.cpu with pc := w, cycles := s.cpu.cycles + 3, instructions := s.cpu.instructions + 1 } ∧
    Completes (.jmpInd w) s { s.cpu with
      pc := mkWord (memRead s.bus.mem (mkWord (hiByte w) (loByte w + 1))) (memRead s.bus.mem w)
      cycles := s.cpu.cycles + 5
      instructions := s.cpu.instructions + 1 }

/-- O13. For PHA and PHP and every state with canonical memory, exec answers a next state in which the byte at 0x0100 | S is A, or
P with bits 4 and 5 set, S is one less modulo 256, P and every other register are as before, and every other address reads as
before. -/
def Obligations.Pushes : Prop :=
  forms .pha false = [(0x48, .implied, 3, false)] ∧
  forms .php false = [(0x08, .implied, 3, false)] ∧
  ∀ (s : State), Memory.wf s.bus.mem = true →
    StoresByte .pha s (past .pha s { s.cpu with s := s.cpu.s - 1 }) (stackAddr s.cpu.s) s.cpu.a ∧
    StoresByte .php s (past .php s { s.cpu with s := s.cpu.s - 1 }) (stackAddr s.cpu.s) (s.cpu.p ||| 0x30)

/-- O14. For PLA and PLP and every state, exec answers a next state in which S is one more modulo 256, A is the byte at 0x0100 | S
with N and Z set from it, or P takes bits 0 to 3, 6 and 7 of that byte, keeps its bit 4 and has bit 5 at 1; nothing else
changes. (PLP keeps bit 4 by the spec's decision D7; its rule is not cited.) -/
def Obligations.Pulls : Prop :=
  forms .pla false = [(0x68, .implied, 4, false)] ∧
  forms .plp false = [(0x28, .implied, 4, false)] ∧
  ∀ (s : State),
    let v := memRead s.bus.mem (stackAddr (s.cpu.s + 1))
    Completes .pla s (past .pla s { s.cpu with s := s.cpu.s + 1, a := v, p := setFlags s.cpu.p (nz v) }) ∧
    Completes .plp s (past .plp s { s.cpu with
      s := s.cpu.s + 1, p := (v &&& 0b11001111#8) ||| (s.cpu.p &&& 0b00010000#8) ||| 0b00100000#8 })

/-- O15. For JSR and every state with canonical memory, exec answers a next state in which the bytes at 0x0100 | S and one below
it (in page 1) are the high and low byte of the opcode address plus 2, every other address reads as before, S is two less,
PC's low byte is the operand's and its high byte the byte at the opcode address plus 2 as the pushes left it (decision D21),
and nothing else changes; so PC is the operand where the instruction lies at PC and the pushes do not hit its last byte. -/
def Obligations.JumpToSubroutine : Prop :=
  ∀ (target : Word) (s : State), Memory.wf s.bus.mem = true →
    let ret := s.cpu.pc + 2
    let hiSlot := stackAddr s.cpu.s
    let loSlot := stackAddr (s.cpu.s - 1)
    ∃ t, exec (.jsr target) s = .next t ∧
      t.cpu = { s.cpu with
        s := s.cpu.s - 2
        pc := mkWord (memRead t.bus.mem ret) (loByte target)
        cycles := s.cpu.cycles + 6
        instructions := s.cpu.instructions + 1 } ∧
      memRead t.bus.mem hiSlot = hiByte ret ∧ memRead t.bus.mem loSlot = loByte ret ∧
      (∀ b, b ≠ hiSlot → b ≠ loSlot → memRead t.bus.mem b = memRead s.bus.mem b) ∧
      (memRead s.bus.mem ret = hiByte target → ret ≠ hiSlot → ret ≠ loSlot → t.cpu.pc = target)

/-- O16. For RTS and RTI and every state, exec answers a next state: RTS pulls the low and then the high byte of an address and
continues at that address plus one modulo 65536; RTI pulls P (bit 4 kept, bit 5 forced), then the low and the high byte, and
continues there; S goes up by two or three modulo 256 and nothing else changes. (That RTI keeps bit 4 is decision D7.) -/
def Obligations.ReturnsFromCalls : Prop :=
  forms .rts false = [(0x60, .implied, 6, false)] ∧
  forms .rti false = [(0x40, .implied, 6, false)] ∧
  ∀ (s : State),
    let at1 := memRead s.bus.mem (stackAddr (s.cpu.s + 1))
    let at2 := memRead s.bus.mem (stackAddr (s.cpu.s + 2))
    let at3 := memRead s.bus.mem (stackAddr (s.cpu.s + 3))
    Completes .rts s { s.cpu with
      s := s.cpu.s + 2
      pc := mkWord at2 at1 + 1
      cycles := s.cpu.cycles + 6
      instructions := s.cpu.instructions + 1 } ∧
    Completes .rti s { s.cpu with
      s := s.cpu.s + 3
      p := (at1 &&& 0b11001111#8) ||| (s.cpu.p &&& 0b00010000#8) ||| 0b00100000#8
      pc := mkWord at3 at2
      cycles := s.cpu.cycles + 6
      instructions := s.cpu.instructions + 1 }

/-- O17. For BRK and every state with canonical memory, whatever I is, exec answers a next state in which the high and low byte of
the opcode address plus 2 and P | 0x30 have been pushed, no other byte changes, S is three less, I is set and no other flag
changes (D is not cleared, decision D5), PC is the word at 0xFFFE, 7 cycles are counted and one instruction is retired. -/
def Obligations.BreakEntersHandler : Prop :=
  forms .brk false = [(0x00, .implied, 7, false)] ∧
  ∀ (s : State), Memory.wf s.bus.mem = true →
    ∃ t, exec .brk s = .next t ∧
      t.cpu = { s.cpu with
        s := s.cpu.s - 3
        p := putFlag s.cpu.p .i true
        pc := memRead16 s.bus.mem 0xFFFE
        cycles := s.cpu.cycles + 7
        instructions := s.cpu.instructions + 1 } ∧
      PushedThree s.bus.mem t.bus.mem s.cpu.s (hiByte (s.cpu.pc + 2)) (loByte (s.cpu.pc + 2)) (s.cpu.p ||| 0x30)

/-- O18. For NOP 0xEA and every undocumented NOP of every mode and every state, exec answers a next state in which only PC and the
counters have changed and every byte of memory reads as before; the absolute_x forms take one more cycle on a page cross.
(That the others read their operand is decision D19, stated with the bus accesses.) -/
def Obligations.NopsOnlyAdvance : Prop :=
  forms .nop false = [(0xEA, .implied, 2, false)] ∧
  forms .nop true = [(0x04, .zeropage, 3, false), (0x0C, .absolute, 4, false), (0x14, .zeropageX, 4, false),
      (0x1A, .implied, 2, false), (0x1C, .absoluteX, 4, true), (0x34, .zeropageX, 4, false),
      (0x3A, .implied, 2, false), (0x3C, .absoluteX, 4, true), (0x44, .zeropage, 3, false),
      (0x54, .zeropageX, 4, false), (0x5A, .implied, 2, false), (0x5C, .absoluteX, 4, true),
      (0x64, .zeropage, 3, false), (0x74, .zeropageX, 4, false), (0x7A, .implied, 2, false),
      (0x7C, .absoluteX, 4, true), (0x80, .immediate, 2, false), (0x82, .immediate, 2, false),
      (0x89, .immediate, 2, false), (0xC2, .immediate, 2, false), (0xD4, .zeropageX, 4, false),
      (0xDA, .implied, 2, false), (0xDC, .absoluteX, 4, true), (0xE2, .immediate, 2, false),
      (0xF4, .zeropageX, 4, false), (0xFA, .implied, 2, false), (0xFC, .absoluteX, 4, true)] ∧
  ∀ (i : Instr) (s : State), i.WellFormed →
    i.hasMnemonic .nop = true → Completes i s (past i s s.cpu)

/-- O19. For every form of SLO, RLA, SRE, RRA and every state with canonical memory, exec answers a next state in which memory
holds the shifted byte (read, old byte written back, result written), A the combination with it, C the carry out of the shift
with N and Z from A, or, for RRA, the four flags of the addition with the carry the rotate produced (decimal when D is set,
decision D17); nothing else changes. -/
def Obligations.ShiftComposites : Prop :=
  forms .slo true = [(0x03, .indirectX, 8, false), (0x07, .zeropage, 5, false), (0x0F, .absolute, 6, false),
      (0x13, .indirectY, 8, false), (0x17, .zeropageX, 6, false), (0x1B, .absoluteY, 7, false),
      (0x1F, .absoluteX, 7, false)] ∧
  forms .rla true = [(0x23, .indirectX, 8, false), (0x27, .zeropage, 5, false), (0x2F, .absolute, 6, false),
      (0x33, .indirectY, 8, false), (0x37, .zeropageX, 6, false), (0x3B, .absoluteY, 7, false),
      (0x3F, .absoluteX, 7, false)] ∧
  forms .sre true = [(0x43, .indirectX, 8, false), (0x47, .zeropage, 5, false), (0x4F, .absolute, 6, false),
      (0x53, .indirectY, 8, false), (0x57, .zeropageX, 6, false), (0x5B, .absoluteY, 7, false),
      (0x5F, .absoluteX, 7, false)] ∧
  forms .rra true = [(0x63, .indirectX, 8, false), (0x67, .zeropage, 5, false), (0x6F, .absolute, 6, false),
      (0x73, .indirectY, 8, false), (0x77, .zeropageX, 6, false), (0x7B, .absoluteY, 7, false),
      (0x7F, .absoluteX, 7, false)] ∧
  ∀ (i : Instr) (s : State), i.WellFormed → Memory.wf s.bus.mem = true →
    let a := s.cpu.a
    let carry := s.cpu.flag .c
    (i.hasMnemonic .slo = true → ModifiesOperand i s (fun m => (asl m).1) fun m =>
      { s.cpu with a := a ||| (asl m).1, p := setFlags s.cpu.p ((.c, (asl m).2) :: nz (a ||| (asl m).1)) }) ∧
    (i.hasMnemonic .rla = true → ModifiesOperand i s (fun m => (rol m carry).1) fun m =>
      { s.cpu with a := a &&& (rol m carry).1, p := setFlags s.cpu.p ((.c, (rol m carry).2) :: nz (a &&& (rol m carry).1)) }) ∧
    (i.hasMnemonic .sre = true → ModifiesOperand i s (fun m => (lsr m).1) fun m =>
      { s.cpu with a := a ^^^ (lsr m).1, p := setFlags s.cpu.p ((.c, (lsr m).2) :: nz (a ^^^ (lsr m).1)) }) ∧
    (i.hasMnemonic .rra = true → ModifiesOperand i s (fun m => (ror m carry).1) fun m =>
      let r := if s.cpu.flag .d = true then addDec a (ror m carry).1 (ror m carry).2 else addBin a (ror m carry).1 (ror m carry).2
      { s.cpu with a := r.value, p := setFlags s.cpu.p (aluFlags r) })

/-- O20. For every form of DCP and ISC and every state with canonical memory, exec answers a next state in which memory holds the
byte minus or plus one (read, old byte written back, result written), and the flags are those of comparing A with it, or A and
the flags are those of SBC with it (decimal when D is set, decision D17); nothing else changes. -/
def Obligations.DecrementCompareAndIncrementSubtract : Prop :=
  forms .dcp true = [(0xC3, .indirectX, 8, false), (0xC7, .zeropage, 5, false), (0xCF, .absolute, 6, false),
      (0xD3, .indirectY, 8, false), (0xD7, .zeropageX, 6, false), (0xDB, .absoluteY, 7, false),
      (0xDF, .absoluteX, 7, false)] ∧
  forms .isc true = [(0xE3, .indirectX, 8, false), (0xE7, .zeropage, 5, false), (0xEF, .absolute, 6, false),
      (0xF3, .indirectY, 8, false), (0xF7, .zeropageX, 6, false), (0xFB, .absoluteY, 7, false),
      (0xFF, .absoluteX, 7, false)] ∧
  ∀ (i : Instr) (s : State), i.WellFormed → Memory.wf s.bus.mem = true →
    (i.hasMnemonic .dcp = true → ModifiesOperand i s (fun m => m - 1) fun m =>
      { s.cpu with p := setFlags s.cpu.p (compareFlags s.cpu.a (m - 1)) }) ∧
    (i.hasMnemonic .isc = true → ModifiesOperand i s (fun m => m + 1) fun m =>
      let r := if s.cpu.flag .d = true then subDec s.cpu.a (m + 1) (s.cpu.flag .c) else subBin s.cpu.a (m + 1) (s.cpu.flag .c)
      { s.cpu with a := r.value, p := setFlags s.cpu.p (aluFlags r) })

/-- O21. For every form of LAX and LAS and every state, exec answers a next state in which A and X hold the operand, or A, X and S
hold the operand AND S, with N and Z set from it; no other register or flag and no byte of memory changes. -/
def Obligations.LoadsOfSeveralRegisters : Prop :=
  forms .lax true = [(0xA3, .indirectX, 6, false), (0xA7, .zeropage, 3, false), (0xAF, .absolute, 4, false),
      (0xB3, .indirectY, 5, true), (0xB7, .zeropageY, 4, false), (0xBF, .absoluteY, 4, true)] ∧
  forms .las true = [(0xBB, .absoluteY, 4, true)] ∧
  ∀ (i : Instr) (s : State), i.WellFormed →
    let m := operandByte i s
    (i.hasMnemonic .lax = true → Completes i s (past i s { s.cpu with a := m, x := m, p := setFlags s.cpu.p (nz m) })) ∧
    (i.hasMnemonic .las = true →
      let r := m &&& s.cpu.s
      Completes i s (past i s { s.cpu with a := r, x := r, s := r, p := setFlags s.cpu.p (nz r) }))

/-- O22. For ANC (both opcodes), ALR, SBX and every state, exec answers a next state in which A is A & M with N and Z set and C
equal to its bit 7; or A is (A & M) shifted right with N and Z set and C the bit shifted out; or X is (A & X) - M modulo 256
with N and Z set and C saying that A & X is at least M; nothing else changes, and D and the carry in play no part. -/
def Obligations.ImmediateComposites : Prop :=
  forms .anc true = [(0x0B, .immediate, 2, false), (0x2B, .immediate, 2, false)] ∧
  forms .alr true = [(0x4B, .immediate, 2, false)] ∧
  forms .sbx true = [(0xCB, .immediate, 2, false)] ∧
  ∀ (i : Instr) (s : State), i.WellFormed →
    let m := operandByte i s
    let a := s.cpu.a
    (i.hasMnemonic .anc = true → Completes i s (past i s { s.cpu with
      a := a &&& m, p := setFlags s.cpu.p (nz (a &&& m) ++ [(.c, (a &&& m).getLsbD 7)]) })) ∧
    (i.hasMnemonic .alr = true → Completes i s (past i s { s.cpu with
      a := (lsr (a &&& m)).1, p := setFlags s.cpu.p ((.c, (lsr (a &&& m)).2) :: nz (lsr (a &&& m)).1) })) ∧
    (i.hasMnemonic .sbx = true → Completes i s (past i s { s.cpu with
      x := (a &&& s.cpu.x) - m
      p := setFlags s.cpu.p ((.c, decide (m.toNat ≤ (a &&& s.cpu.x).toNat)) :: nz ((a &&& s.cpu.x) - m)) }))

/-- O23. For ARR and every state, exec answers a next state: with t = A & M and r = t shifted right with C entering bit 7, in
binary A is r, N and Z are set from r, C is bit 6 of r and V bit 6 xor bit 5; in decimal (decision D17) N is the old C, Z and
V come from r before the fix-up, the low nibble is fixed by 6 and the high one by 0x60 by the tests on the nibbles of t, and C
says that the high one was; nothing else changes. -/
def Obligations.RotateAndAnd : Prop :=
  forms .arr true = [(0x6B, .immediate, 2, false)] ∧
  ∀ (i : Instr) (s : State), i.WellFormed →
    i.hasMnemonic .arr = true →
      let c := s.cpu.flag .c
      let t := s.cpu.a &&& operandByte i s
      let r := (t >>> 1) ||| (if c then 0x80#8 else 0x00#8)
      let low := if (t &&& 0x0F#8).toNat + (t &&& 0x01#8).toNat > 5 then (r &&& 0xF0#8) ||| ((r + 6#8) &&& 0x0F#8) else r
      let high := (t >>> 4).toNat + ((t >>> 4) &&& 0x01#8).toNat > 5
      (s.cpu.flag .d = false → Completes i s (past i s { s.cpu with
        a := r, p := setFlags s.cpu.p (nz r ++ [(.c, r.getLsbD 6), (.v, r.getLsbD 6 ^^ r.getLsbD 5)]) })) ∧
      (s.cpu.flag .d = true → Completes i s (past i s { s.cpu with
        a := if high then low + 0x60#8 else low
        p := setFlags s.cpu.p [(.n, c), (.z, r == 0), (.v, (t ^^^ r).getLsbD 6), (.c, decide high)] }))

/-- O24. For ANE and LXA and every state, exec answers a next state in which A is (A | 0xEE) & X & M, or A and X are (A | 0xEE) &
M, with N and Z set from it; nothing else changes. (LXA's constant is decision D11; its rule is not cited.) -/
def Obligations.MagicConstants : Prop :=
  forms .ane true = [(0x8B, .immediate, 2, false)] ∧
  forms .lxa true = [(0xAB, .immediate, 2, false)] ∧
  ∀ (i : Instr) (s : State), i.WellFormed →
    let m := operandByte i s
    (i.hasMnemonic .ane = true →
      let r := (s.cpu.a ||| 0xEE#8) &&& s.cpu.x &&& m
      Completes i s (past i s { s.cpu with a := r, p := setFlags s.cpu.p (nz r) })) ∧
    (i.hasMnemonic .lxa = true →
      let r := (s.cpu.a ||| 0xEE#8) &&& m
      Completes i s (past i s { s.cpu with a := r, x := r, p := setFlags s.cpu.p (nz r) }))

/-- O25. For every form of SHA, SHX, SHY, TAS and every state with canonical memory, exec answers a next state in which the stored
value is the register term (A & X, X, Y, or A & X which TAS also puts in S) AND the high byte of the address before indexing
plus one, the address is the indexed one, or on a page cross the word of that value and the indexed low byte (decision D12);
every other address reads as before and nothing else changes. -/
def Obligations.UnstableStores : Prop :=
  forms .sha true = [(0x93, .indirectY, 6, false), (0x9F, .absoluteY, 5, false)] ∧
  forms .shx true = [(0x9E, .absoluteY, 5, false)] ∧
  forms .shy true = [(0x9C, .absoluteX, 5, false)] ∧
  forms .tas true = [(0x9B, .absoluteY, 5, false)] ∧
  ∀ (i : Instr) (s : State), i.WellFormed → Memory.wf s.bus.mem = true →
    let store := fun (reg : Byte) (c : Cpu) => ∃ ea0 ea crossed, operandOf i s = .addr ea0 ea crossed ∧
      let v := reg &&& (hiByte ea0 + 1)
      StoresByte i s (past i s c) (if crossed then mkWord v (loByte ea) else ea) v
    (i.hasMnemonic .sha = true → store (s.cpu.a &&& s.cpu.x) s.cpu) ∧
    (i.hasMnemonic .shx = true → store s.cpu.x s.cpu) ∧
    (i.hasMnemonic .shy = true → store s.cpu.y s.cpu) ∧
    (i.hasMnemonic .tas = true → store (s.cpu.a &&& s.cpu.x) { s.cpu with s := s.cpu.a &&& s.cpu.x })

/-- O26. For each of the twelve JAM opcodes and every state, exec answers a next state in which the phase is Halted, PC is one
more, one cycle is counted, nothing is retired, and nothing else in the core or memory changes, the opcode fetch being the
only bus access; and a step of a halted core counts one cycle and changes nothing else, with no bus access and no interrupt
taken (decisions D9, D10, D25). -/
def Obligations.JamHalts : Prop :=
  (∀ op : Byte, op ∈ jamOpcodes ↔ op ∈ [0x02#8, 0x12#8, 0x22#8, 0x32#8, 0x42#8, 0x52#8, 0x62#8, 0x72#8, 0x92#8, 0xB2#8, 0xD2#8, 0xF2#8]) ∧
  (∀ (i : Instr) (s : State), i.WellFormed → i.hasMnemonic .jam = true → ∃ t, exec i s = .next t ∧
    t.cpu = { s.cpu with phase := .halted, pc := s.cpu.pc + 1, cycles := s.cpu.cycles + 1 } ∧
    t.bus.mem = s.bus.mem ∧ Accessed s t [rd s s.cpu.pc]) ∧
  (∀ s : State, s.cpu.phase = .halted → s.cpu.invalid = none →
    step s = .next { s with cpu := { s.cpu with cycles := s.cpu.cycles + 1 } })

/-- O27. The base counts are the table of R219; for every instruction and state exec answers a next state in which the cycles
counted are the base count, plus one when the boundary flag is set and indexing crosses a page, and for a branch 2 not taken,
3 taken to the same page, 4 taken to another; JAM counts 1; and exactly as many bus accesses are made. -/
def Obligations.CycleCounts : Prop :=
  (∀ op : Byte, (opcodeTable op).map (fun r => r.cycles) = lookupIn cycleGrid op) ∧
  (∀ op : Byte, (opcodeTable op).map (fun r => r.boundary) = some (boundaryOpcodes.contains op)) ∧
  ∀ (i : Instr) (s : State), i.WellFormed → ∃ r t l, i.row? = some r ∧ exec i s = .next t ∧
    t.cpu.cycles = s.cpu.cycles +
      (if r.mode = .relative then
        (if branchTaken i s then
          (if hiByte (s.cpu.pc + 2 + i.b1.signExtend 16) = hiByte (s.cpu.pc + 2) then 3 else 4)
        else 2)
      else r.cycles + (if r.boundary = true ∧ (operandOf i s).crossed = true then 1 else 0)) ∧
    t.bus.log = l ++ s.bus.log ∧ s.cpu.cycles + l.length = t.cpu.cycles

/-- O28. For any bus collaborator, instruction table and parameters, one call of advance on a core that is not frozen counts
exactly one cycle; halted it makes no bus access and changes nothing else; otherwise, unless the micro-step index lies outside
the sequence in flight (a state no run reaches), it makes exactly one access, recorded by the recording collaborator. -/
def Obligations.OneAccessPerCycle : Prop :=
  ∀ (β : Type) (P : Params) (B : Bus β) (s : Sys (β × List BusEvent)), s.cpu.invalid = none →
    let (r, t) := advanceOn P B.recorded s
    t.cpu.cycles = s.cpu.cycles + 1 ∧
    (s.cpu.phase = .halted → r = .halted ∧ t = { s with cpu := { s.cpu with cycles := s.cpu.cycles + 1 } }) ∧
    (s.cpu.phase ≠ .halted → r ≠ .noSuchCycle → ∃ e, t.bus.2 = e :: s.bus.2)

/-- O29. For every instruction of these modes and every state: opcode fetch, operand fetch, with an index a discarded read of the
unindexed zero-page address, then the data access of the class at the address: one read; one write, of the byte the
instruction stores; or read, write of the old byte, write of the result. -/
def Obligations.ZeropageAccesses : Prop :=
  ∀ (i : Instr) (s : State), i.WellFormed →
    (i.mode = .zeropage → DataAccesses i s (fetch2 s) (zeroPage i.b1)) ∧
    (i.mode = .zeropageX → DataAccesses i s (fetch2 s ++ [rd s (zeroPage i.b1)]) (zeroPage (i.b1 + s.cpu.x))) ∧
    (i.mode = .zeropageY → DataAccesses i s (fetch2 s ++ [rd s (zeroPage i.b1)]) (zeroPage (i.b1 + s.cpu.y)))

/-- O30. For every read, write and read-modify-write instruction of these modes and every state: the three fetches, then at an
absolute address the data access of the class; with an index a read at the uncorrected address, which is the data read of a
read-class instruction unless a page was crossed, then the data access of the class: the write of the byte the instruction
stores, or read, write of the old byte, write of the result. (For SHA, SHX, SHY, TAS the write has the value and address of
R185, decision D12.) -/
def Obligations.AbsoluteAccesses : Prop :=
  ∀ (i : Instr) (s : State), i.WellFormed →
    (i.mode = .absolute → DataAccesses i s (fetch3 s) (mkWord i.b2 i.b1)) ∧
    (i.mode = .absoluteX → IndexedAccesses i s (fetch3 s) (mkWord i.b2 i.b1) s.cpu.x) ∧
    (i.mode = .absoluteY → IndexedAccesses i s (fetch3 s) (mkWord i.b2 i.b1) s.cpu.y)

/-- O31. For every instruction of these modes and every state: two fetches; indirect_x reads b1 and discards it, then reads the
pointer at b1 + X within page 0, and makes the data access of its class at the pointer; indirect_y reads the pointer at b1
within page 0 and goes on as an indexed mode on that base with Y; what is written is the byte the instruction stores, or its
result after the old byte. (The pointers wrapping in page 0 are decision D3, the write of SHA with the value and address of
R185 decision D12.) -/
def Obligations.IndirectAccesses : Prop :=
  ∀ (i : Instr) (s : State), i.WellFormed →
    (i.mode = .indirectX →
      let p := i.b1 + s.cpu.x
      DataAccesses i s (fetch2 s ++ [rd s (zeroPage i.b1), rd s (zeroPage p), rd s (zeroPage (p + 1))])
        (mkWord (memRead s.bus.mem (zeroPage (p + 1))) (memRead s.bus.mem (zeroPage p)))) ∧
    (i.mode = .indirectY →
      IndexedAccesses i s (fetch2 s ++ [rd s (zeroPage i.b1), rd s (zeroPage (i.b1 + 1))])
        (mkWord (memRead s.bus.mem (zeroPage (i.b1 + 1))) (memRead s.bus.mem (zeroPage i.b1))) s.cpu.y)

/-- O32. For every state: a two-cycle implied or accumulator instruction and an immediate one read the opcode and the byte after
it; a branch reads opcode and offset, when taken PCnext too, and when the target is in another page the target's low byte in
PCnext's page; JMP absolute makes its three fetches, and JMP indirect then reads the pointer's low byte and its high byte
within the pointer's page. -/
def Obligations.ImpliedImmediateAndJumpAccesses : Prop :=
  (∀ (i : Instr) (s : State), i.WellFormed →
    (i.mode = .immediate → Accesses i s (fetch2 s)) ∧
    (i.cls = .control → i.mode = .implied ∨ i.mode = .accumulator → (i.row?.map (fun r => r.cycles)) = some 2 →
      Accesses i s (fetch2 s)) ∧
    (i.mode = .relative →
      let next := s.cpu.pc + 2
      let target := next + i.b1.signExtend 16
      Accesses i s (fetch2 s ++
        if branchTaken i s then rd s next :: (if hiByte target = hiByte next then [] else [rd s (mkWord (hiByte next) (loByte target))])
        else []))) ∧
  (∀ (w : Word) (s : State), Accesses (.jmpAbs w) s (fetch3 s) ∧
    Accesses (.jmpInd w) s (fetch3 s ++ [rd s w, rd s (mkWord (hiByte w) (loByte w + 1))]))

/-- O33. For every state with canonical memory, each stack instruction makes exactly the accesses of its sequence: two reads at PC
(JSR and BRK fetch the second byte), the discarded stack read where the sequence has one, the pushes and pulls in order, JSR's
read of its last byte after the pushes (decision D21), RTS's discarded read at the pulled address, BRK's two vector reads.
(BRK's sequence with the padding byte read and skipped is decision D6.) -/
def Obligations.StackAccesses : Prop :=
  ∀ (s : State), Memory.wf s.bus.mem = true →
    let sp := s.cpu.s
    let two := [rd s s.cpu.pc, rd s (s.cpu.pc + 1)]
    let ret := s.cpu.pc + 2
    let at1 := rd s (stackAddr (sp + 1))
    let at2 := rd s (stackAddr (sp + 2))
    let at3 := rd s (stackAddr (sp + 3))
    let back := mkWord (memRead s.bus.mem (stackAddr (sp + 2))) (memRead s.bus.mem (stackAddr (sp + 1)))
    Accesses .pha s (two ++ [.write (stackAddr sp) s.cpu.a]) ∧
    Accesses .php s (two ++ [.write (stackAddr sp) (s.cpu.p ||| 0x30)]) ∧
    Accesses .pla s (two ++ [rd s (stackAddr sp), at1]) ∧
    Accesses .plp s (two ++ [rd s (stackAddr sp), at1]) ∧
    Accesses .rts s (two ++ [rd s (stackAddr sp), at1, at2, rd s back]) ∧
    Accesses .rti s (two ++ [rd s (stackAddr sp), at1, at2, at3]) ∧
    (∀ target, ∃ t, exec (.jsr target) s = .next t ∧ Accessed s t (two ++ [rd s (stackAddr sp),
      .write (stackAddr sp) (hiByte ret), .write (stackAddr (sp - 1)) (loByte ret), rd t ret])) ∧
    (∃ t, exec .brk s = .next t ∧ Accessed s t (two ++ [.write (stackAddr sp) (hiByte ret),
      .write (stackAddr (sp - 1)) (loByte ret), .write (stackAddr (sp - 2)) (s.cpu.p ||| 0x30), rd t 0xFFFE, rd t 0xFFFF]))

/-- O34. For all bytes and carries: AddBin gives the sum modulo 256, C the unsigned carry, V the signed overflow; SubBin gives a -
m - (1 - c) modulo 256, C that it is not negative, V the signed overflow; both give Z and N of the result; Asl, Lsr, Rol, Ror
double or halve the byte with the carry entering and the bit shifted out leaving. (That V is the signed overflow and C of
SubBin no borrow are the spec's own inferences in R105, R106.) -/
def Obligations.BinaryAluAndShiftFunctions : Prop :=
  (∀ (a m : Byte) (c : Bool),
    let r := addBin a m c
    r.value.toNat = (a.toNat + m.toNat + c.toNat) % 256 ∧
    (r.c = true ↔ a.toNat + m.toNat + c.toNat > 255) ∧
    (r.v = true ↔ a.toInt + m.toInt + c.toNat < -128 ∨ a.toInt + m.toInt + c.toNat > 127) ∧
    (r.z = true ↔ r.value = 0) ∧ (r.n = true ↔ r.value.toNat ≥ 128)) ∧
  (∀ (a m : Byte) (c : Bool),
    let r := subBin a m c
    (r.value.toNat : Int) = ((a.toNat : Int) - m.toNat - (1 - c.toNat)) % 256 ∧
    (r.c = true ↔ (a.toNat : Int) - m.toNat - (1 - c.toNat) ≥ 0) ∧
    (r.v = true ↔ a.toInt - m.toInt - (1 - c.toNat) < -128 ∨ a.toInt - m.toInt - (1 - c.toNat) > 127) ∧
    (r.z = true ↔ r.value = 0) ∧ (r.n = true ↔ r.value.toNat ≥ 128)) ∧
  (∀ (v : Byte) (c : Bool),
    (asl v).1.toNat = v.toNat * 2 % 256 ∧ ((asl v).2 = true ↔ v.toNat ≥ 128) ∧
    (lsr v).1.toNat = v.toNat / 2 ∧ ((lsr v).2 = true ↔ v.toNat % 2 = 1) ∧
    (rol v c).1.toNat = v.toNat * 2 % 256 + c.toNat ∧ ((rol v c).2 = true ↔ v.toNat ≥ 128) ∧
    (ror v c).1.toNat = v.toNat / 2 + 128 * c.toNat ∧ ((ror v c).2 = true ↔ v.toNat % 2 = 1))

/-- O35. For all bytes a, m and carry c, decimal or not: the result and the flags C, V, Z, N of AddDec are those the steps of R107
give (N and V from the intermediate before the high-nibble correction, Z from the binary sum); and where a and m are packed
decimal, the result is the packed decimal form of the sum modulo 100, and C says that the sum exceeds 99. (The steps of R107
are decision D15.) -/
def Obligations.DecimalAddition : Prop :=
  (∀ (a m : Byte) (c : Bool),
    let r := addDec a m c
    let low := (a &&& 0x0F).toNat + (m &&& 0x0F).toNat + c.toNat
    let fixed := if low > 0x09 then low + 0x06 else low
    let high := (a &&& 0xF0).toNat + (m &&& 0xF0).toNat
    let t := if fixed ≤ 0x0F then (fixed &&& 0x0F) + high else (fixed &&& 0x0F) + high + 0x10
    let t' := if (t &&& 0x1F0) > 0x90 then t + 0x60 else t
    r.value.toNat = t' % 256 ∧ (r.c = true ↔ (t' &&& 0xFF0) > 0xF0) ∧ r.n = t.testBit 7 ∧
    (r.v = true ↔ a.getLsbD 7 ≠ t.testBit 7 ∧ a.getLsbD 7 = m.getLsbD 7) ∧
    (r.z = true ↔ (a.toNat + m.toNat + c.toNat) % 256 = 0)) ∧
  ∀ (a m : Byte) (c : Bool), IsBcd a → IsBcd m →
    let n := bcdValue a + bcdValue m + c.toNat
    let r := addDec a m c
    IsBcd r.value ∧ bcdValue r.value = n % 100 ∧ (r.c = true ↔ n > 99)

/-- O36. For all bytes a, m and carry c, decimal or not: the result of SubDec is the one the steps of R108 give, and its four
flags are those of SubBin; and where a and m are packed decimal, the result is the packed decimal form of a - m - (1 - c)
modulo 100, and C says that it is not negative. (The steps of R108 are decision D15.) -/
def Obligations.DecimalSubtraction : Prop :=
  (∀ (a m : Byte) (c : Bool),
    let lo : Int := ((a &&& 0x0F).toNat : Int) - (m &&& 0x0F).toNat - (1 - c.toNat)
    let hi : Int := ((a &&& 0xF0).toNat : Int) - (m &&& 0xF0).toNat
    let r := if lo < 0 then (hi - 0x10) + (lo - 6) % 16 else hi + lo
    ((subDec a m c).value.toNat : Int) = (if r < 0 then r - 0x60 else r) % 256 ∧
    aluFlags (subDec a m c) = aluFlags (subBin a m c)) ∧
  ∀ (a m : Byte) (c : Bool), IsBcd a → IsBcd m →
    let n := (bcdValue a : Int) - bcdValue m - (1 - c.toNat)
    let r := subDec a m c
    IsBcd r.value ∧ (bcdValue r.value : Int) = n % 100 ∧ (r.c = true ↔ n ≥ 0)

/-- O37. In every canonical memory a write leaves it canonical, the byte written reads back and every other address reads as
before; a 16-bit read takes its low byte at the address and its high byte at the address plus one modulo 65536; a 16-bit write
stores them there, and reads back; two canonical memories that read alike everywhere are equal. (Plain RAM behind the bus is
log entry 1; the canonical form, which rests on what an unlisted byte reads as, is log entry 2: the model's choices.) -/
def Obligations.MemoryReadsAndWrites : Prop :=
  (∀ (m : Memory) (a b : Word) (v : Byte), Memory.wf m = true →
    Memory.wf (memWrite m a v) = true ∧ memRead (memWrite m a v) b = if b = a then v else memRead m b) ∧
  (∀ (m : Memory) (a : Word),
    (memRead16 m a).toNat = (memRead m a).toNat + 256 * (memRead m (BitVec.ofNat 16 ((a.toNat + 1) % 65536))).toNat) ∧
  (∀ (m : Memory) (a w : Word), Memory.wf m = true → memRead16 (memWrite16 m a w) a = w) ∧
  (∀ (m m' : Memory), Memory.wf m = true → Memory.wf m' = true → (∀ a, memRead m a = memRead m' a) → m = m')

/-- O38. In every state with canonical memory: a push makes one bus write, of the value at address 0x0100 + S, and S becomes S - 1
modulo 256; a pull makes S one more modulo 256 and makes one bus read at 0x0100 + S; no other byte or register changes; with S
= 0x00 a push leaves 0xFF and with S = 0xFF a pull reads 0x0100. -/
def Obligations.StackPrimitives : Prop :=
  ∀ (s : State) (v : Byte), Memory.wf s.bus.mem = true →
    (stackAddr s.cpu.s).toNat = 0x100 + s.cpu.s.toNat ∧
    (s.push v).cpu = { s.cpu with s := s.cpu.s - 1, cycles := s.cpu.cycles + 1 } ∧
    Accessed s (s.push v) [.write (stackAddr s.cpu.s) v] ∧
    memRead (s.push v).bus.mem (stackAddr s.cpu.s) = v ∧
    (∀ b, b ≠ stackAddr s.cpu.s → memRead (s.push v).bus.mem b = memRead s.bus.mem b) ∧
    (s.cpu.s = 0x00 → stackAddr s.cpu.s = 0x0100 ∧ (s.push v).cpu.s = 0xFF) ∧
    s.pull.1 = memRead s.bus.mem (stackAddr (s.cpu.s + 1)) ∧
    s.pull.2.cpu = { s.cpu with s := s.cpu.s + 1, cycles := s.cpu.cycles + 1 } ∧
    Accessed s s.pull.2 [rd s (stackAddr (s.cpu.s + 1))] ∧ s.pull.2.bus.mem = s.bus.mem ∧
    (s.cpu.s = 0xFF → stackAddr (s.cpu.s + 1) = 0x0100 ∧ s.pull.2.cpu.s = 0x00)

/-- O39. For every status byte: the flags are its bits 0 to 7 in the order C, Z, I, D, B, U, V, N; writing a flag gives it its
value and leaves every other; SetP(v) is (v & 0xCF) | (P & 0x10) | 0x20; what PHP and BRK push has bits 4 and 5 at 1, what an
interrupt pushes has bit 4 at 0 and bit 5 at 1, each with the other bits of P. (The bit order is the spec's inference in R26,
bit 4 in SetP its decision D7.) -/
def Obligations.StatusByteWrites : Prop :=
  (∀ (p : Byte) (f g : Flag) (on : Bool), getFlag (putFlag p f on) g = if g = f then on else getFlag p g) ∧
  (∀ p : Byte, [Flag.c, .z, .i, .d, .b, .u, .v, .n].map (getFlag p) =
    [p.getLsbD 0, p.getLsbD 1, p.getLsbD 2, p.getLsbD 3, p.getLsbD 4, p.getLsbD 5, p.getLsbD 6, p.getLsbD 7]) ∧
  (∀ (v : Byte) (c : Cpu), (c.setP v).p = (v &&& 0b11001111#8) ||| (c.p &&& 0b00010000#8) ||| 0b00100000#8) ∧
  (∀ (c : Cpu) (f : Flag), getFlag c.statusForBreak f = (if f = .b ∨ f = .u then true else c.flag f)) ∧
  (∀ (c : Cpu) (f : Flag), getFlag c.statusForInterrupt f = (if f = .b then false else if f = .u then true else c.flag f))

/-- O40. For all operand bytes and states: immediate resolves to b1; relative to PC + 2 plus the signed offset modulo 65536;
zeropage to b1; zeropage_x and _y to b1 plus the index modulo 256; absolute to b2:b1; absolute_x and _y to that plus the index
modulo 65536, with crossed exactly when the low byte's sum exceeds 255, which is when the high byte changes, and the
uncorrected address in the base's page; indirect through a pointer whose high byte is read in its page; indirect_x and
indirect_y through page-0 pointers that wrap in page 0 (decision D3). -/
def Obligations.ResolverRules : Prop :=
  ∀ (b1 b2 : Byte) (s : State),
    let mem := fun n => (memRead s.bus.mem (BitVec.ofNat 16 n)).toNat
    resolve .implied b1 b2 s = .nothing ∧ resolve .accumulator b1 b2 s = .acc ∧ resolve .immediate b1 b2 s = .imm b1 ∧
    (∃ ea, resolve .relative b1 b2 s = .addr ea ea false ∧ (ea.toNat : Int) = ((s.cpu.pc.toNat : Int) + 2 + b1.toInt) % 65536) ∧
    (∃ ea, resolve .zeropage b1 b2 s = .addr ea ea false ∧ ea.toNat = b1.toNat) ∧
    (∃ ea, resolve .zeropageX b1 b2 s = .addr ea ea false ∧ ea.toNat = (b1.toNat + s.cpu.x.toNat) % 256) ∧
    (∃ ea, resolve .zeropageY b1 b2 s = .addr ea ea false ∧ ea.toNat = (b1.toNat + s.cpu.y.toNat) % 256) ∧
    (∃ ea, resolve .absolute b1 b2 s = .addr ea ea false ∧ ea.toNat = b2.toNat * 256 + b1.toNat) ∧
    (∃ ea0 ea crossed, resolve .absoluteX b1 b2 s = .addr ea0 ea crossed ∧
      ea.toNat = (b2.toNat * 256 + b1.toNat + s.cpu.x.toNat) % 65536 ∧ (crossed = true ↔ b1.toNat + s.cpu.x.toNat > 255) ∧
      (crossed = true ↔ hiByte ea ≠ b2) ∧ hiByte ea0 = b2 ∧ loByte ea0 = loByte ea ∧ (crossed = false → ea0 = ea)) ∧
    (∃ ea0 ea crossed, resolve .absoluteY b1 b2 s = .addr ea0 ea crossed ∧
      ea.toNat = (b2.toNat * 256 + b1.toNat + s.cpu.y.toNat) % 65536 ∧ (crossed = true ↔ b1.toNat + s.cpu.y.toNat > 255) ∧
      (crossed = true ↔ hiByte ea ≠ b2) ∧ hiByte ea0 = b2 ∧ loByte ea0 = loByte ea ∧ (crossed = false → ea0 = ea)) ∧
    (∃ ea, resolve .indirect b1 b2 s = .addr ea ea false ∧
      ea.toNat = mem (b2.toNat * 256 + b1.toNat) + 256 * mem (b2.toNat * 256 + (b1.toNat + 1) % 256)) ∧
    (∃ ea, resolve .indirectX b1 b2 s = .addr ea ea false ∧
      ea.toNat = mem ((b1.toNat + s.cpu.x.toNat) % 256) + 256 * mem ((b1.toNat + s.cpu.x.toNat + 1) % 256)) ∧
    (∃ ea0 ea crossed, resolve .indirectY b1 b2 s = .addr ea0 ea crossed ∧
      ea.toNat = (mem b1.toNat + 256 * mem ((b1.toNat + 1) % 256) + s.cpu.y.toNat) % 65536 ∧
      (crossed = true ↔ mem b1.toNat + s.cpu.y.toNat > 255) ∧ (crossed = true ↔ (hiByte ea).toNat ≠ mem ((b1.toNat + 1) % 256)) ∧
      (hiByte ea0).toNat = mem ((b1.toNat + 1) % 256) ∧ loByte ea0 = loByte ea ∧ (crossed = false → ea0 = ea))

/-- O41. For every well-formed instruction, with every operand at every value, and every list of bytes after it, decode of its
encoding followed by that list is the instruction and the list. -/
def Obligations.DecodeOfEncode : Prop :=
  ∀ (i : Instr) (rest : List Byte), i.WellFormed → decode (encode i ++ rest) = .ok (i, rest)

/-- O42. For every list of bytes that decodes to an instruction and a rest, the instruction is well-formed and the list is its
encoding followed by the rest. -/
def Obligations.EncodeOfDecode : Prop :=
  ∀ (bytes rest : List Byte) (i : Instr), decode bytes = .ok (i, rest) → i.WellFormed ∧ bytes = encode i ++ rest

/-- O43. Every list of at least three bytes decodes to an instruction whose opcode is the first byte (no opcode is reserved or
missing); and two instructions decoded from lists with the same first byte have the same length, mode and class, the length
being 1, 2 or 3 by the mode. -/
def Obligations.EveryOpcodeDecodes : Prop :=
  (∀ (b0 b1 b2 : Byte) (rest : List Byte), ∃ i tail, decode (b0 :: b1 :: b2 :: rest) = .ok (i, tail) ∧ i.opcode = b0) ∧
  ∀ (op : Byte) (r1 r2 t1 t2 : List Byte) (i j : Instr), decode (op :: r1) = .ok (i, t1) → decode (op :: r2) = .ok (j, t2) →
    i.length = j.length ∧ i.mode = j.mode ∧ i.cls = j.cls ∧ i.length = i.mode.operandBytes + 1

/-- O44. A few instructions of every family, their bytes written out from the spec's opcode map with the low operand byte first,
decode to the instruction they stand for. -/
def Obligations.SampleWords : Prop :=
  decodeTableWord 16 0x80A9 = some (.ldaImm 0x80) ∧ decodeTableWord 24 0x02008D = some (.staAbs 0x0200) ∧
  decodeTableWord 16 0x1061 = some (.adcIndX 0x10) ∧ decodeTableWord 16 0x10F1 = some (.sbcIndY 0x10) ∧
  decodeTableWord 24 0x1234DD = some (.cmpAbsX 0x1234) ∧ decodeTableWord 16 0x80B6 = some (.ldxZpY 0x80) ∧
  decodeTableWord 8 0x0A = some .aslAcc ∧ decodeTableWord 24 0x12005E = some (.lsrAbsX 0x1200) ∧
  decodeTableWord 16 0xFED0 = some (.bne 0xFE) ∧ decodeTableWord 24 0x21FF6C = some (.jmpInd 0x21FF) ∧
  decodeTableWord 24 0x123420 = some (.jsr 0x1234) ∧ decodeTableWord 8 0x00 = some .brk ∧ decodeTableWord 8 0x40 = some .rti ∧
  decodeTableWord 8 0x68 = some .pla ∧ decodeTableWord 8 0xBA = some .tsx ∧ decodeTableWord 8 0xF8 = some .sed ∧
  decodeTableWord 8 0xEA = some .nop ∧ decodeTableWord 16 0x1007 = some (.sloZp 0x10) ∧ decodeTableWord 16 0xFF8B = some (.aneImm 0xFF) ∧
  decodeTableWord 24 0x12009F = some (.shaAbsY 0x1200) ∧ decodeTableWord 8 0xF2 = some (.jam 0xF2) ∧
  decodeTableWord 16 0x01EB = some (.usbcImm 0x01) ∧ decodeTableWord 24 0x12F03C = some (.nopAbsX 0x3C 0x12F0)

/-- O45. The boundary flag is set on exactly the 32 listed opcodes, all of class read; every entry is well-formed; 151 entries are
legal and 105 illegal; and for every entry the base count is the number of cycles of its sequence, less the conditional ones
(one where the boundary flag is set, two of a branch). -/
def Obligations.TableIsConsistent : Prop :=
  (∀ op : Byte, ∃ r, opcodeTable op = some r ∧ r.wellFormed = true ∧ r.boundary = boundaryOpcodes.contains op ∧
    (r.boundary = true → r.cls = .read) ∧
    ((r.mode = .absoluteX ∨ r.mode = .absoluteY ∨ r.mode = .indirectY) → r.boundary = false → r.cls = .write ∨ r.cls = .rmw) ∧
    r.cycles + (if r.boundary then 1 else 0) + (if r.mode = .relative then 2 else 0) = (sequenceOf r).length) ∧
  boundaryOpcodes.length = 32 ∧
  ((List.range 256).filter fun n => (opcodeTable (BitVec.ofNat 8 n)).any (fun r => r.illegal)).length = 105

/-- O46. In every state at an instruction boundary, not frozen, with no NMI pending and no unmasked IRQ pending, if the bytes at
PC, PC + 1, PC + 2 (modulo 65536) decode to an instruction, the step is exec of that instruction at that state. (The bytes are
looked at without a bus access and fetched by the meaning: log entry 5.) -/
def Obligations.StepRunsDecodedInstruction : Prop :=
  ∀ (s : State) (i : Instr) (rest : List Byte), s.cpu.phase = .idle → s.cpu.invalid = none → s.cpu.nmi = false →
    (s.cpu.irq = true → s.cpu.flag .i = true) →
    decode [memRead s.bus.mem s.cpu.pc, memRead s.bus.mem (s.cpu.pc + 1), memRead s.bus.mem (s.cpu.pc + 2)] = .ok (i, rest) →
    step s = exec i s

/-- O47. In every state at a boundary, not frozen, with canonical memory: with an NMI pending the step enters through 0xFFFA and
clears the NMI latch alone, an IRQ staying pending; else with an IRQ pending and I clear it enters through 0xFFFE and clears
the IRQ latch. Entry pushes the high and low byte of PC and P with bit 4 at 0 and bit 5 at 1, changes no other byte, makes
exactly the seven accesses of its sequence, leaves S three less, I set and every other flag as it was, counts 7 cycles and no
instruction (decisions D4, D5, D13). -/
def Obligations.InterruptEntry : Prop :=
  ∀ (s : State), s.cpu.phase = .idle → s.cpu.invalid = none → Memory.wf s.bus.mem = true →
    let enters := fun (vector : Word) (c : Cpu) =>
      let status := (s.cpu.p &&& 0b11101111#8) ||| 0b00100000#8
      ∃ t, step s = .next t ∧
        t.cpu = { c with
          s := s.cpu.s - 3
          p := putFlag s.cpu.p .i true
          pc := memRead16 s.bus.mem vector
          cycles := s.cpu.cycles + 7 } ∧
        PushedThree s.bus.mem t.bus.mem s.cpu.s (hiByte s.cpu.pc) (loByte s.cpu.pc) status ∧
        Accessed s t [rd s s.cpu.pc, rd s s.cpu.pc, .write (stackAddr s.cpu.s) (hiByte s.cpu.pc),
          .write (stackAddr (s.cpu.s - 1)) (loByte s.cpu.pc), .write (stackAddr (s.cpu.s - 2)) status,
          rd s vector, rd s (vector + 1)]
    (s.cpu.nmi = true → enters 0xFFFA { s.cpu with nmi := false }) ∧
    (s.cpu.nmi = false → s.cpu.irq = true → s.cpu.flag .i = false → enters 0xFFFE { s.cpu with irq := false })

/-- O48. Reset, in any state, gives PC the word at 0xFFFC, S 0xFF, A, X, Y 0, P 0x20, phase Idle, nothing in flight, both latches
false, both counters 0, no fault; it changes no byte of memory and makes two reads, 0xFFFC then 0xFFFD; State.reset is that
state with nothing in memory; on any collaborator reset makes the same two reads. (The engine, latch and counter values are
decision D8. That PC is 0x0000 with nothing in memory rests on log entry 2, the latches held as 0 on log entry 7, the record
of accesses on log entry 3: the model's choices.) -/
def Obligations.ResetValues : Prop :=
  (∀ s : State, s.hostReset.cpu =
      { a := 0, x := 0, y := 0, s := 0xFF, pc := memRead16 s.bus.mem 0xFFFC, p := 0b00100000
        phase := .idle, micro := 0, latches := {}, nmi := false, irq := false, cycles := 0, instructions := 0, invalid := none } ∧
    s.hostReset.bus.mem = s.bus.mem ∧ Accessed s s.hostReset [rd s 0xFFFC, rd s 0xFFFD]) ∧
  (∀ c : Cpu, State.hostReset ⟨c, ⟨[], []⟩⟩ = State.reset) ∧ State.reset.cpu.pc = 0x0000 ∧
  (∀ (β : Type) (B : Bus β) (b : β),
    (resetOn B b).2 = (B.peek (B.peek b 0xFFFC).2 0xFFFD).2 ∧
    (resetOn B b).1 = Cpu.afterReset (mkWord (B.peek (B.peek b 0xFFFC).2 0xFFFD).1 (B.peek b 0xFFFC).1))

/-- O49. The state after reset, and the state after a host reset of any state with canonical memory, is sound: memory canonical,
status bit 5 at 1, the engine at rest, no fault. (Latches held as 0 at rest: log entry 7.) -/
def Obligations.ResetIsSound : Prop :=
  State.reset.Sound ∧ ∀ s : State, Memory.wf s.bus.mem = true → s.hostReset.Sound

/-- O50. For every sound state (canonical memory, status bit 5 at 1, phase, micro-step index and latches in agreement, no fault),
if the step answers a next state, that state is sound. (The canonical form of memory, the latches held as 0 at rest and the
phase between two cycles are the model's: log entries 2, 7, 6.) -/
def Obligations.StepKeepsSound : Prop :=
  ∀ s t : State, s.Sound → step s = .next t → t.Sound

/-- O51. For every sound state, one advance answers a next state (never a fault, never a refusal), and that state is sound: after
every bus cycle the phase, the micro-step index and the latched opcode agree, so the engine can be paused and resumed after
each. (The phase between two cycles and the latches held as 0 at rest are the model's: log entries 6, 7.) -/
def Obligations.AdvanceKeepsSound : Prop :=
  ∀ s : State, s.Sound → ∃ t, advance s = .next t ∧ t.Sound

/-- O52. For every sound state, the step (the meaning of the instruction at PC, an interrupt entry, a halted cycle, or the rest of
a sequence in flight) is what repeated advance gives until the phase is Idle or Halted, in every register, latch, counter,
byte of memory and bus access. (A step with a sequence in flight is log entry 4, the bound of 8 calls log entry 16, both the
model's inferences.) -/
def Obligations.StepIsRepeatedAdvance : Prop :=
  ∀ s : State, s.Sound → step s = stepByCycles s

/-- O53. For every sound state the step answers a next state, whose phase is Idle or Halted, after at least 1 and at most 8
cycles; no fault and no refusal arises, and the instructions counted go up by at most one. -/
def Obligations.SoundStepsComplete : Prop :=
  ∀ s : State, s.Sound → ∃ t, step s = .next t ∧ (t.cpu.phase = .idle ∨ t.cpu.phase = .halted) ∧
    s.cpu.cycles < t.cpu.cycles ∧ t.cpu.cycles ≤ s.cpu.cycles + 8 ∧
    s.cpu.instructions ≤ t.cpu.instructions ∧ t.cpu.instructions ≤ s.cpu.instructions + 1

/-- O54. In every state with status bit 5 at 1, if an instruction changes a flag, its mnemonic is in the flag's list of writers:
C, I, D and V as the spec lists them, Z and N the instructions that set them from a result or pull P, and no instruction
changes B or U. -/
def Obligations.FlagWriters : Prop :=
  ∀ (i : Instr) (s t : State), i.WellFormed → s.cpu.flag .u = true → exec i s = .next t →
    let writes := fun (f : Flag) (l : List Mnemonic) => t.cpu.flag f ≠ s.cpu.flag f → mnemonicOf i ∈ l
    writes .c [.adc, .sbc, .rra, .isc, .cmp, .cpx, .cpy, .dcp, .sbx, .asl, .lsr, .rol, .ror, .slo, .rla, .sre, .anc, .alr, .arr,
        .clc, .sec, .plp, .rti] ∧
    writes .z [.lda, .ldx, .ldy, .adc, .sbc, .cmp, .cpx, .cpy, .inc, .dec, .inx, .iny, .dex, .dey, .and, .ora, .eor, .bit,
        .asl, .lsr, .rol, .ror, .pla, .plp, .rti, .tax, .tay, .txa, .tya, .tsx, .slo, .rla, .sre, .rra, .dcp, .isc, .lax, .las,
        .anc, .alr, .arr, .sbx, .ane, .lxa] ∧
    writes .n [.lda, .ldx, .ldy, .adc, .sbc, .cmp, .cpx, .cpy, .inc, .dec, .inx, .iny, .dex, .dey, .and, .ora, .eor, .bit,
        .asl, .lsr, .rol, .ror, .pla, .plp, .rti, .tax, .tay, .txa, .tya, .tsx, .slo, .rla, .sre, .rra, .dcp, .isc, .lax, .las,
        .anc, .alr, .arr, .sbx, .ane, .lxa] ∧
    writes .i [.cli, .sei, .plp, .rti, .brk] ∧ writes .d [.cld, .sed, .plp, .rti] ∧
    writes .v [.adc, .sbc, .rra, .isc, .bit, .arr, .clv, .plp, .rti] ∧ writes .b [] ∧ writes .u []

/-- O55. If an instruction changes A, X, Y or S, its mnemonic is in that register's list of writers (the shifts change A only in
accumulator mode); only JAM changes the phase; no instruction changes the micro-step index, the latches, the NMI and IRQ
requests or the fault. -/
def Obligations.RegisterWriters : Prop :=
  ∀ (i : Instr) (s t : State), i.WellFormed → exec i s = .next t →
    (t.cpu.a ≠ s.cpu.a → mnemonicOf i ∈ [.lda, .pla, .txa, .tya, .adc, .sbc, .and, .ora, .eor, .slo, .rla, .sre, .rra, .lax, .isc,
        .anc, .alr, .arr, .ane, .lxa, .las] ∨ (i.mode = .accumulator ∧ mnemonicOf i ∈ [.asl, .lsr, .rol, .ror])) ∧
    (t.cpu.x ≠ s.cpu.x → mnemonicOf i ∈ [.ldx, .tax, .tsx, .inx, .dex, .lax, .lxa, .las, .sbx]) ∧
    (t.cpu.y ≠ s.cpu.y → mnemonicOf i ∈ [.ldy, .tay, .iny, .dey]) ∧
    (t.cpu.s ≠ s.cpu.s → mnemonicOf i ∈ [.txs, .tas, .las, .pha, .php, .pla, .plp, .jsr, .rts, .rti, .brk]) ∧
    (t.cpu.phase ≠ s.cpu.phase → mnemonicOf i = .jam) ∧
    t.cpu.micro = s.cpu.micro ∧ t.cpu.latches = s.cpu.latches ∧ t.cpu.nmi = s.cpu.nmi ∧ t.cpu.irq = s.cpu.irq ∧
    t.cpu.invalid = s.cpu.invalid

/-- O56. For every instruction and state, running it with bit 4 of P flipped gives the same outcome with bit 4 of P flipped: the
same registers, flags, PC, cycles, memory and bus accesses (what is pushed included). (That bit 4 is stored at all is decision
D7.) -/
def Obligations.BreakBitIsInvisible : Prop :=
  ∀ (i : Instr) (s t : State), i.WellFormed → exec i s = .next t → exec i (flipBreak s) = .next (flipBreak t)

/-- O57. Two machines at a boundary that differ at most in the cycle and instruction counters and in the record of past bus
accesses take steps to machines that again differ at most there. -/
def Obligations.CountersAreInvisible : Prop :=
  ∀ (s s' t : State), s.AtBoundary → SameButCounters s s' → step s = .next t → ∃ t', step s' = .next t' ∧ SameButCounters t t'

/-- O58. In every state with canonical memory and status bit 5 at 1, PHA followed by PLA leaves A and S as before the pair, and
PHP followed by PLP leaves P and S as before the pair. -/
def Obligations.PushThenPull : Prop :=
  ∀ (s : State), Memory.wf s.bus.mem = true → s.cpu.flag .u = true →
    (∃ t u, exec .pha s = .next t ∧ exec .pla t = .next u ∧ u.cpu.a = s.cpu.a ∧ u.cpu.s = s.cpu.s) ∧
    (∃ t u, exec .php s = .next t ∧ exec .plp t = .next u ∧ u.cpu.p = s.cpu.p ∧ u.cpu.s = s.cpu.s)

/-- O59. With any collaborator and any table that has no entry for the byte at PC, an advance at a boundary with no interrupt to
take reads that byte, increments PC, counts one cycle, changes no other register, answers InvalidOpcode with the byte and its
address, and from then on advance and step answer it again without running a cycle (decision D24; the details of the frozen
state are the model's, log entry 8). -/
def Obligations.InvalidOpcodeFreezes : Prop :=
  ∀ (β : Type) (P : Params) (B : Bus β) (s : Sys β), s.cpu.phase = .idle → s.cpu.invalid = none → s.cpu.boundaryEvent = none →
    let op := (B.peek s.bus s.cpu.pc).1
    P.table op = none →
    let (r, t) := advanceOn P B s
    r = .invalidOpcode op s.cpu.pc ∧ t.bus = (B.peek s.bus s.cpu.pc).2 ∧ t.cpu.pc = s.cpu.pc + 1 ∧
    t.cpu.cycles = s.cpu.cycles + 1 ∧ t.cpu.instructions = s.cpu.instructions ∧ t.cpu.a = s.cpu.a ∧ t.cpu.x = s.cpu.x ∧
    t.cpu.y = s.cpu.y ∧ t.cpu.s = s.cpu.s ∧ t.cpu.p = s.cpu.p ∧ t.cpu.nmi = s.cpu.nmi ∧ t.cpu.irq = s.cpu.irq ∧
    advanceOn P B t = (.invalidOpcode op s.cpu.pc, t) ∧
    ∀ n, stepOn P B (n + 1) t = (.invalidOpcode op s.cpu.pc, 0, t)

/-- O60. A host write of PC, S, A, X, Y or P changes that register alone when the phase is Idle (P with bit 5 forced to 1, bit 4
as given) and is refused at any other phase; a write of the interrupt lines changes the latches alone, in any phase; and a
latch set before a cycle that begins at a boundary is seen by that cycle's decision: an NMI starts the interrupt sequence. On
any bus, with any table and parameters, an advance that does not begin at a boundary leaves both latches as they are, starts
no interrupt sequence, and does the same whatever the lines are: the result and the state after it are the same with other
lines but for the latches themselves (decisions D4, D14, D27). -/
def Obligations.HostWritesAndLines : Prop :=
  (∀ (s : State) (v : Byte) (w : Word), s.cpu.phase = .idle →
    hostWriteA v s = .next { s with cpu := { s.cpu with a := v } } ∧ hostWriteX v s = .next { s with cpu := { s.cpu with x := v } } ∧
    hostWriteY v s = .next { s with cpu := { s.cpu with y := v } } ∧ hostWriteS v s = .next { s with cpu := { s.cpu with s := v } } ∧
    hostWritePc w s = .next { s with cpu := { s.cpu with pc := w } } ∧
    hostWriteP v s = .next { s with cpu := { s.cpu with p := v ||| 0b00100000#8 } }) ∧
  (∀ (s : State) (v : Byte) (w : Word), s.cpu.phase ≠ .idle →
    hostWriteA v s = .refused .hostWriteInFlight ∧ hostWriteX v s = .refused .hostWriteInFlight ∧
    hostWriteY v s = .refused .hostWriteInFlight ∧ hostWriteS v s = .refused .hostWriteInFlight ∧
    hostWritePc w s = .refused .hostWriteInFlight ∧ hostWriteP v s = .refused .hostWriteInFlight) ∧
  (∀ (s : State) (n q : Bool),
    s.hostSetLines ⟨some n, some q⟩ = { s with cpu := { s.cpu with nmi := n, irq := q } } ∧
    s.hostSetLines ⟨some n, none⟩ = { s with cpu := { s.cpu with nmi := n } } ∧
    s.hostSetLines ⟨none, some q⟩ = { s with cpu := { s.cpu with irq := q } }) ∧
  (∀ s : State, s.cpu.phase = .idle → s.cpu.invalid = none → ∃ t, clockCycle ⟨some true, none⟩ s = .next t ∧
    t.cpu.phase = .handlingInterrupt ∧ t.cpu.nmi = false ∧ t.cpu.irq = s.cpu.irq) ∧
  (∀ (β : Type) (P : Params) (B : Bus β) (s : Sys β), s.cpu.phase ≠ .idle →
    let (r, t) := advanceOn P B s
    t.cpu.nmi = s.cpu.nmi ∧ t.cpu.irq = s.cpu.irq ∧
    (s.cpu.phase ≠ .handlingInterrupt → t.cpu.phase ≠ .handlingInterrupt) ∧
    ∀ inp : LineInput, advanceOn P B (s.mapCpu (Cpu.setLines inp)) = (r, t.mapCpu (Cpu.setLines inp)))
end

