-- ==== Sys2Proof/Laws/Flags.lean ====
section
/-! SUPPORT. Laws of the flags: what one flag reads as after another is written, and what each flag operation leaves. -/

namespace Sys2Proof.Machine

theorem Flag.bit_lt (f : Flag) : f.bit < 8 := by cases f <;> decide

theorem Flag.bit_inj {f g : Flag} : f.bit = g.bit ↔ f = g := by cases f <;> cases g <;> decide

/-- A flag reads as it was written last; a write of another flag does not touch it (R29). -/
@[simp] theorem getFlag_putFlag (p : Byte) (f g : Flag) (on : Bool) :
    getFlag (putFlag p f on) g = if f = g then on else getFlag p g := by
  have hg := g.bit_lt
  have one : (1#8 <<< f.bit).getLsbD g.bit = decide (f = g) := by
    rw [Bool.eq_iff_iff]
    simp only [BitVec.getLsbD_shiftLeft, BitVec.getLsbD_one, hg, ← Flag.bit_inj (f := f), Bool.and_eq_true,
      decide_eq_true_eq, Bool.not_eq_true', decide_eq_false_iff_not, true_and]
    omega
  cases on <;>
    simp only [getFlag, putFlag, BitVec.getLsbD_or, BitVec.getLsbD_and, BitVec.getLsbD_not, one, hg, if_true,
      Bool.false_eq_true, if_false] <;>
    by_cases e : f = g <;> simp [e]

@[simp] theorem flag_setFlag (f g : Flag) (on : Bool) (c : Cpu) :
    (c.setFlag f on).flag g = if f = g then on else c.flag g := getFlag_putFlag _ _ _ _



/-- N and Z after `setNZ` (R15). -/
theorem flag_setNZ (v : Byte) (c : Cpu) (g : Flag) :
    (c.setNZ v).flag g = match g with | .z => v == 0 | .n => v.getLsbD 7 | g => c.flag g := by
  cases g <;> simp [Cpu.setNZ]

/-- The flags after `SetP(v)` (R27). -/
theorem getFlag_setPValue (old v : Byte) (g : Flag) :
    getFlag (setPValue old v) g = match g with | .b => getFlag old .b | .u => true | g => getFlag v g := by
  cases g <;> simp [getFlag, setPValue, Flag.bit]

/-- A status byte is its eight flags. -/
theorem status_ext {p q : Byte} (h : ∀ f, getFlag p f = getFlag q f) : p = q := by
  apply BitVec.eq_of_getLsbD_eq
  intro k hk
  have hf : ∃ f : Flag, f.bit = k := by
    have : k = 0 ∨ k = 1 ∨ k = 2 ∨ k = 3 ∨ k = 4 ∨ k = 5 ∨ k = 6 ∨ k = 7 := by omega
    rcases this with rfl | rfl | rfl | rfl | rfl | rfl | rfl | rfl
    exacts [⟨.c, rfl⟩, ⟨.z, rfl⟩, ⟨.i, rfl⟩, ⟨.d, rfl⟩, ⟨.b, rfl⟩, ⟨.u, rfl⟩, ⟨.v, rfl⟩, ⟨.n, rfl⟩]
  obtain ⟨f, rfl⟩ := hf
  exact h f

end Sys2Proof.Machine
end

