-- ==== Sys2Proof/Laws/Word.lean ====
section
/-! SUPPORT. Laws of the byte-order helpers: a word is its two bytes, and the page arithmetic built on that. -/

namespace Sys2Proof

@[simp] theorem loByte_mkWord (h l : Byte) : loByte (mkWord h l) = l := by
  apply BitVec.eq_of_getLsbD_eq
  intro k hk
  simp only [loByte, mkWord, BitVec.getLsbD_extractLsb', BitVec.getLsbD_append, Nat.zero_add, hk, decide_true,
    Bool.true_and, if_true]

@[simp] theorem hiByte_mkWord (h l : Byte) : hiByte (mkWord h l) = h := by
  apply BitVec.eq_of_getLsbD_eq
  intro k hk
  have n : ¬ 8 + k < 8 := by omega
  simp only [hiByte, mkWord, BitVec.getLsbD_extractLsb', BitVec.getLsbD_append, hk, n, decide_true, Bool.true_and,
    if_false, Nat.add_sub_cancel_left]

@[simp] theorem mkWord_hiByte_loByte (w : Word) : mkWord (hiByte w) (loByte w) = w := by
  apply BitVec.eq_of_getLsbD_eq
  intro k hk
  simp only [mkWord, hiByte, loByte, BitVec.getLsbD_append, BitVec.getLsbD_extractLsb']
  split
  · simp [*]
  · have e : 8 + (k - 8) = k := by omega
    simp only [e, Bool.and_eq_right_iff_imp, decide_eq_true_eq]
    omega

theorem mkWord_toNat (h l : Byte) : (mkWord h l).toNat = h.toNat * 256 + l.toNat := by
  have := l.isLt
  simp only [mkWord, BitVec.toNat_append, Nat.shiftLeft_eq]
  rw [Nat.mul_comm, ← Nat.two_pow_add_eq_or_of_lt (by omega)]

theorem loByte_toNat (w : Word) : (loByte w).toNat = w.toNat % 256 := by simp [loByte]

theorem hiByte_toNat (w : Word) : (hiByte w).toNat = w.toNat / 256 := by
  have := w.isLt
  simp [hiByte, Nat.shiftRight_eq_div_pow]; omega

theorem mkWord_inj {h l h' l' : Byte} (e : mkWord h l = mkWord h' l') : h = h' ∧ l = l' :=
  ⟨by simpa using congrArg hiByte e, by simpa using congrArg loByte e⟩

/-- Words agree when their two bytes do. -/
theorem word_ext {v w : Word} (h : hiByte v = hiByte w) (l : loByte v = loByte w) : v = w := by
  rw [← mkWord_hiByte_loByte v, ← mkWord_hiByte_loByte w, h, l]

@[simp] theorem zeroPage_toNat (b : Byte) : (zeroPage b).toNat = b.toNat := by simp [zeroPage, mkWord_toNat]

end Sys2Proof
end

