-- ==== Sys2Proof/Laws/Memory.lean ====
section
/-! SUPPORT. Laws of memory: a read after a write, and the canonical form that every write keeps. -/

namespace Sys2Proof.Machine

theorem memGet_memCons (k j : Nat) (v : Byte) (rest : Memory) (h : memGet k rest = Config.unlistedByte) :
    memGet j (memCons k v rest) = if k = j then v else memGet j rest := by
  unfold memCons
  split
  · split
    · subst_vars; exact h
    · rfl
  · rfl

/-- A canonical memory lists no key below its bound. -/
theorem memGet_below {lo k : Nat} {m : Memory} (wf : memWfFrom lo m = true) (h : k < lo) :
    memGet k m = Config.unlistedByte := by
  induction m generalizing lo with
  | nil => rfl
  | cons c rest ih =>
    obtain ⟨j, v⟩ := c
    simp only [memWfFrom, Bool.and_eq_true, decide_eq_true_eq] at wf
    simp only [memGet]
    rw [if_neg (by omega)]
    exact ih wf.2 (by omega)

theorem memWfFrom_mono {lo lo' : Nat} {m : Memory} (wf : memWfFrom lo m = true) (h : lo' ≤ lo) :
    memWfFrom lo' m = true := by
  cases m with
  | nil => rfl
  | cons c rest =>
    obtain ⟨j, v⟩ := c
    simp only [memWfFrom, Bool.and_eq_true, decide_eq_true_eq] at wf ⊢
    exact ⟨⟨⟨by omega, wf.1.1.2⟩, wf.1.2⟩, wf.2⟩

/-- In canonical memory a read gives the byte written last at that key, and any other key reads as before. -/
theorem memGet_memSet {lo : Nat} {m : Memory} (wf : memWfFrom lo m = true) (k j : Nat) (v : Byte) :
    memGet j (memSet k v m) = if k = j then v else memGet j m := by
  induction m generalizing lo with
  | nil => exact memGet_memCons _ _ _ _ rfl
  | cons c rest ih =>
    obtain ⟨i, w⟩ := c
    simp only [memWfFrom, Bool.and_eq_true, decide_eq_true_eq] at wf
    simp only [memSet]
    split
    · simp only [memGet]
      by_cases e : i = j
      · simp [e]; intro hk; omega
      · simp only [e, if_false]; exact ih wf.2
    · split
      · rw [memGet_memCons _ _ _ _ (memGet_below wf.2 (by omega))]
        subst_vars
        simp only [memGet]
        split <;> rfl
      · refine memGet_memCons _ _ _ _ ?_
        simp only [memGet]
        rw [if_neg (by omega)]
        exact memGet_below wf.2 (by omega)

theorem memWfFrom_memCons {lo k : Nat} {v : Byte} {rest : Memory} (hlo : lo ≤ k) (hk : k < 65536)
    (wf : memWfFrom (k + 1) rest = true) : memWfFrom lo (memCons k v rest) = true := by
  unfold memCons
  split
  · exact memWfFrom_mono wf (by omega)
  · simp_all [memWfFrom]

/-- A write keeps the canonical form. -/
theorem memWfFrom_memSet {lo k : Nat} {v : Byte} {m : Memory} (wf : memWfFrom lo m = true) (hlo : lo ≤ k)
    (hk : k < 65536) : memWfFrom lo (memSet k v m) = true := by
  induction m generalizing lo with
  | nil => exact memWfFrom_memCons hlo hk rfl
  | cons c rest ih =>
    obtain ⟨j, w⟩ := c
    simp only [memSet]
    simp only [memWfFrom, Bool.and_eq_true, decide_eq_true_eq] at wf
    split
    · simp only [memWfFrom, Bool.and_eq_true, decide_eq_true_eq]
      exact ⟨wf.1, ih wf.2 (by omega)⟩
    · split
      · subst_vars; exact memWfFrom_memCons hlo hk wf.2
      · refine memWfFrom_memCons hlo hk ?_
        simp only [memWfFrom, Bool.and_eq_true, decide_eq_true_eq]
        exact ⟨⟨⟨by omega, wf.1.1.2⟩, wf.1.2⟩, wf.2⟩

/-- The byte read at `b` after a write at `a` (R50). -/
theorem memRead_memWrite {m : Memory} (wf : Memory.wf m = true) (a b : Word) (v : Byte) :
    memRead (memWrite m a v) b = if a = b then v else memRead m b := by
  have h := memGet_memSet wf a.toNat b.toNat v
  simpa [memRead, memWrite, BitVec.toNat_inj] using h

@[simp] theorem memRead_memWrite_same {m : Memory} (wf : Memory.wf m = true) (a : Word) (v : Byte) :
    memRead (memWrite m a v) a = v := by simp [memRead_memWrite wf]

theorem memRead_memWrite_ne {m : Memory} (wf : Memory.wf m = true) {a b : Word} (h : a ≠ b) (v : Byte) :
    memRead (memWrite m a v) b = memRead m b := by simp [memRead_memWrite wf, h]

@[simp] theorem memWrite_wf {m : Memory} (wf : Memory.wf m = true) (a : Word) (v : Byte) :
    Memory.wf (memWrite m a v) = true := memWfFrom_memSet wf (Nat.zero_le _) a.isLt

theorem reset_mem_wf : Memory.wf State.reset.bus.mem = true := rfl

/-! The bus: an access changes the log, a write the memory too. -/

@[simp] theorem Ram.read_fst (r : Ram) (a : Word) : (r.read a).1 = memRead r.mem a := rfl
@[simp] theorem Ram.read_mem (r : Ram) (a : Word) : (r.read a).2.mem = r.mem := rfl
@[simp] theorem Ram.read_log (r : Ram) (a : Word) : (r.read a).2.log = .read a (memRead r.mem a) :: r.log := rfl
@[simp] theorem Ram.write_mem (r : Ram) (a : Word) (v : Byte) : (r.write a v).mem = memWrite r.mem a v := rfl
@[simp] theorem Ram.write_log (r : Ram) (a : Word) (v : Byte) : (r.write a v).log = .write a v :: r.log := rfl
@[simp] theorem ramBus_peek (r : Ram) (a : Word) : ramBus.peek r a = r.read a := rfl
@[simp] theorem ramBus_poke (r : Ram) (a : Word) (v : Byte) : ramBus.poke r a v = r.write a v := rfl

end Sys2Proof.Machine
end

