-- ==== Sys2Proof/Laws/State.lean ====
section
/-! SUPPORT. One lemma per field per update of the core, so that no proof unfolds a record update. -/

namespace Sys2Proof.Machine

variable (c : Cpu)

/-- Cores with equal fields are equal. -/
theorem Cpu.ext' {c d : Cpu} (a : c.a = d.a) (x : c.x = d.x) (y : c.y = d.y) (s : c.s = d.s) (pc : c.pc = d.pc)
    (p : c.p = d.p) (phase : c.phase = d.phase) (micro : c.micro = d.micro) (latches : c.latches = d.latches)
    (nmi : c.nmi = d.nmi) (irq : c.irq = d.irq) (cycles : c.cycles = d.cycles)
    (instructions : c.instructions = d.instructions) (invalid : c.invalid = d.invalid) : c = d := by
  cases c; cases d; simp_all

@[simp] theorem tick_a : c.tick.a = c.a := rfl
@[simp] theorem tick_x : c.tick.x = c.x := rfl
@[simp] theorem tick_y : c.tick.y = c.y := rfl
@[simp] theorem tick_s : c.tick.s = c.s := rfl
@[simp] theorem tick_pc : c.tick.pc = c.pc := rfl
@[simp] theorem tick_p : c.tick.p = c.p := rfl
@[simp] theorem tick_phase : c.tick.phase = c.phase := rfl
@[simp] theorem tick_micro : c.tick.micro = c.micro := rfl
@[simp] theorem tick_latches : c.tick.latches = c.latches := rfl
@[simp] theorem tick_nmi : c.tick.nmi = c.nmi := rfl
@[simp] theorem tick_irq : c.tick.irq = c.irq := rfl
@[simp] theorem tick_cycles : c.tick.cycles = c.cycles + 1 := rfl
@[simp] theorem tick_instructions : c.tick.instructions = c.instructions := rfl
@[simp] theorem tick_invalid : c.tick.invalid = c.invalid := rfl

@[simp] theorem incPc_a : c.incPc.a = c.a := rfl
@[simp] theorem incPc_x : c.incPc.x = c.x := rfl
@[simp] theorem incPc_y : c.incPc.y = c.y := rfl
@[simp] theorem incPc_s : c.incPc.s = c.s := rfl
@[simp] theorem incPc_pc : c.incPc.pc = c.pc + 1 := rfl
@[simp] theorem incPc_p : c.incPc.p = c.p := rfl
@[simp] theorem incPc_phase : c.incPc.phase = c.phase := rfl
@[simp] theorem incPc_micro : c.incPc.micro = c.micro := rfl
@[simp] theorem incPc_latches : c.incPc.latches = c.latches := rfl
@[simp] theorem incPc_nmi : c.incPc.nmi = c.nmi := rfl
@[simp] theorem incPc_irq : c.incPc.irq = c.irq := rfl
@[simp] theorem incPc_cycles : c.incPc.cycles = c.cycles := rfl
@[simp] theorem incPc_instructions : c.incPc.instructions = c.instructions := rfl
@[simp] theorem incPc_invalid : c.incPc.invalid = c.invalid := rfl

@[simp] theorem jump_a (t : Word) : (c.jump t).a = c.a := rfl
@[simp] theorem jump_x (t : Word) : (c.jump t).x = c.x := rfl
@[simp] theorem jump_y (t : Word) : (c.jump t).y = c.y := rfl
@[simp] theorem jump_s (t : Word) : (c.jump t).s = c.s := rfl
@[simp] theorem jump_pc (t : Word) : (c.jump t).pc = t := rfl
@[simp] theorem jump_p (t : Word) : (c.jump t).p = c.p := rfl
@[simp] theorem jump_phase (t : Word) : (c.jump t).phase = c.phase := rfl
@[simp] theorem jump_micro (t : Word) : (c.jump t).micro = c.micro := rfl
@[simp] theorem jump_latches (t : Word) : (c.jump t).latches = c.latches := rfl
@[simp] theorem jump_nmi (t : Word) : (c.jump t).nmi = c.nmi := rfl
@[simp] theorem jump_irq (t : Word) : (c.jump t).irq = c.irq := rfl
@[simp] theorem jump_cycles (t : Word) : (c.jump t).cycles = c.cycles := rfl
@[simp] theorem jump_instructions (t : Word) : (c.jump t).instructions = c.instructions := rfl
@[simp] theorem jump_invalid (t : Word) : (c.jump t).invalid = c.invalid := rfl

@[simp] theorem retire_a : c.retire.a = c.a := rfl
@[simp] theorem retire_x : c.retire.x = c.x := rfl
@[simp] theorem retire_y : c.retire.y = c.y := rfl
@[simp] theorem retire_s : c.retire.s = c.s := rfl
@[simp] theorem retire_pc : c.retire.pc = c.pc := rfl
@[simp] theorem retire_p : c.retire.p = c.p := rfl
@[simp] theorem retire_phase : c.retire.phase = c.phase := rfl
@[simp] theorem retire_micro : c.retire.micro = c.micro := rfl
@[simp] theorem retire_latches : c.retire.latches = c.latches := rfl
@[simp] theorem retire_nmi : c.retire.nmi = c.nmi := rfl
@[simp] theorem retire_irq : c.retire.irq = c.irq := rfl
@[simp] theorem retire_cycles : c.retire.cycles = c.cycles := rfl
@[simp] theorem retire_instructions : c.retire.instructions = c.instructions + 1 := rfl
@[simp] theorem retire_invalid : c.retire.invalid = c.invalid := rfl

@[simp] theorem decS_a : c.decS.a = c.a := rfl
@[simp] theorem decS_x : c.decS.x = c.x := rfl
@[simp] theorem decS_y : c.decS.y = c.y := rfl
@[simp] theorem decS_s : c.decS.s = c.s - 1 := rfl
@[simp] theorem decS_pc : c.decS.pc = c.pc := rfl
@[simp] theorem decS_p : c.decS.p = c.p := rfl
@[simp] theorem decS_phase : c.decS.phase = c.phase := rfl
@[simp] theorem decS_micro : c.decS.micro = c.micro := rfl
@[simp] theorem decS_latches : c.decS.latches = c.latches := rfl
@[simp] theorem decS_nmi : c.decS.nmi = c.nmi := rfl
@[simp] theorem decS_irq : c.decS.irq = c.irq := rfl
@[simp] theorem decS_cycles : c.decS.cycles = c.cycles := rfl
@[simp] theorem decS_instructions : c.decS.instructions = c.instructions := rfl
@[simp] theorem decS_invalid : c.decS.invalid = c.invalid := rfl

@[simp] theorem incS_a : c.incS.a = c.a := rfl
@[simp] theorem incS_x : c.incS.x = c.x := rfl
@[simp] theorem incS_y : c.incS.y = c.y := rfl
@[simp] theorem incS_s : c.incS.s = c.s + 1 := rfl
@[simp] theorem incS_pc : c.incS.pc = c.pc := rfl
@[simp] theorem incS_p : c.incS.p = c.p := rfl
@[simp] theorem incS_phase : c.incS.phase = c.phase := rfl
@[simp] theorem incS_micro : c.incS.micro = c.micro := rfl
@[simp] theorem incS_latches : c.incS.latches = c.latches := rfl
@[simp] theorem incS_nmi : c.incS.nmi = c.nmi := rfl
@[simp] theorem incS_irq : c.incS.irq = c.irq := rfl
@[simp] theorem incS_cycles : c.incS.cycles = c.cycles := rfl
@[simp] theorem incS_instructions : c.incS.instructions = c.instructions := rfl
@[simp] theorem incS_invalid : c.incS.invalid = c.invalid := rfl

@[simp] theorem setFlag_a (f : Flag) (on : Bool) : (c.setFlag f on).a = c.a := rfl
@[simp] theorem setFlag_x (f : Flag) (on : Bool) : (c.setFlag f on).x = c.x := rfl
@[simp] theorem setFlag_y (f : Flag) (on : Bool) : (c.setFlag f on).y = c.y := rfl
@[simp] theorem setFlag_s (f : Flag) (on : Bool) : (c.setFlag f on).s = c.s := rfl
@[simp] theorem setFlag_pc (f : Flag) (on : Bool) : (c.setFlag f on).pc = c.pc := rfl
@[simp] theorem setFlag_status (f : Flag) (on : Bool) : (c.setFlag f on).p = putFlag c.p f on := rfl
@[simp] theorem setFlag_phase (f : Flag) (on : Bool) : (c.setFlag f on).phase = c.phase := rfl
@[simp] theorem setFlag_micro (f : Flag) (on : Bool) : (c.setFlag f on).micro = c.micro := rfl
@[simp] theorem setFlag_latches (f : Flag) (on : Bool) : (c.setFlag f on).latches = c.latches := rfl
@[simp] theorem setFlag_nmi (f : Flag) (on : Bool) : (c.setFlag f on).nmi = c.nmi := rfl
@[simp] theorem setFlag_irq (f : Flag) (on : Bool) : (c.setFlag f on).irq = c.irq := rfl
@[simp] theorem setFlag_cycles (f : Flag) (on : Bool) : (c.setFlag f on).cycles = c.cycles := rfl
@[simp] theorem setFlag_instructions (f : Flag) (on : Bool) : (c.setFlag f on).instructions = c.instructions := rfl
@[simp] theorem setFlag_invalid (f : Flag) (on : Bool) : (c.setFlag f on).invalid = c.invalid := rfl

@[simp] theorem setNZ_a (v : Byte) : (c.setNZ v).a = c.a := rfl
@[simp] theorem setNZ_x (v : Byte) : (c.setNZ v).x = c.x := rfl
@[simp] theorem setNZ_y (v : Byte) : (c.setNZ v).y = c.y := rfl
@[simp] theorem setNZ_s (v : Byte) : (c.setNZ v).s = c.s := rfl
@[simp] theorem setNZ_pc (v : Byte) : (c.setNZ v).pc = c.pc := rfl
@[simp] theorem setNZ_p (v : Byte) : (c.setNZ v).p = putFlag (putFlag c.p .z (v == 0)) .n (v.getLsbD 7) := rfl
@[simp] theorem setNZ_phase (v : Byte) : (c.setNZ v).phase = c.phase := rfl
@[simp] theorem setNZ_micro (v : Byte) : (c.setNZ v).micro = c.micro := rfl
@[simp] theorem setNZ_latches (v : Byte) : (c.setNZ v).latches = c.latches := rfl
@[simp] theorem setNZ_nmi (v : Byte) : (c.setNZ v).nmi = c.nmi := rfl
@[simp] theorem setNZ_irq (v : Byte) : (c.setNZ v).irq = c.irq := rfl
@[simp] theorem setNZ_cycles (v : Byte) : (c.setNZ v).cycles = c.cycles := rfl
@[simp] theorem setNZ_instructions (v : Byte) : (c.setNZ v).instructions = c.instructions := rfl
@[simp] theorem setNZ_invalid (v : Byte) : (c.setNZ v).invalid = c.invalid := rfl

@[simp] theorem setP_a (v : Byte) : (c.setP v).a = c.a := rfl
@[simp] theorem setP_x (v : Byte) : (c.setP v).x = c.x := rfl
@[simp] theorem setP_y (v : Byte) : (c.setP v).y = c.y := rfl
@[simp] theorem setP_s (v : Byte) : (c.setP v).s = c.s := rfl
@[simp] theorem setP_pc (v : Byte) : (c.setP v).pc = c.pc := rfl
@[simp] theorem setP_p (v : Byte) : (c.setP v).p = setPValue c.p v := rfl
@[simp] theorem setP_phase (v : Byte) : (c.setP v).phase = c.phase := rfl
@[simp] theorem setP_micro (v : Byte) : (c.setP v).micro = c.micro := rfl
@[simp] theorem setP_latches (v : Byte) : (c.setP v).latches = c.latches := rfl
@[simp] theorem setP_nmi (v : Byte) : (c.setP v).nmi = c.nmi := rfl
@[simp] theorem setP_irq (v : Byte) : (c.setP v).irq = c.irq := rfl
@[simp] theorem setP_cycles (v : Byte) : (c.setP v).cycles = c.cycles := rfl
@[simp] theorem setP_instructions (v : Byte) : (c.setP v).instructions = c.instructions := rfl
@[simp] theorem setP_invalid (v : Byte) : (c.setP v).invalid = c.invalid := rfl

@[simp] theorem loadA_a (v : Byte) : (c.loadA v).a = v := rfl
@[simp] theorem loadA_x (v : Byte) : (c.loadA v).x = c.x := rfl
@[simp] theorem loadA_y (v : Byte) : (c.loadA v).y = c.y := rfl
@[simp] theorem loadA_s (v : Byte) : (c.loadA v).s = c.s := rfl
@[simp] theorem loadA_pc (v : Byte) : (c.loadA v).pc = c.pc := rfl
@[simp] theorem loadA_p (v : Byte) : (c.loadA v).p = putFlag (putFlag c.p .z (v == 0)) .n (v.getLsbD 7) := rfl
@[simp] theorem loadA_phase (v : Byte) : (c.loadA v).phase = c.phase := rfl
@[simp] theorem loadA_micro (v : Byte) : (c.loadA v).micro = c.micro := rfl
@[simp] theorem loadA_latches (v : Byte) : (c.loadA v).latches = c.latches := rfl
@[simp] theorem loadA_nmi (v : Byte) : (c.loadA v).nmi = c.nmi := rfl
@[simp] theorem loadA_irq (v : Byte) : (c.loadA v).irq = c.irq := rfl
@[simp] theorem loadA_cycles (v : Byte) : (c.loadA v).cycles = c.cycles := rfl
@[simp] theorem loadA_instructions (v : Byte) : (c.loadA v).instructions = c.instructions := rfl
@[simp] theorem loadA_invalid (v : Byte) : (c.loadA v).invalid = c.invalid := rfl

@[simp] theorem compare_a (r m : Byte) : (c.compare r m).a = c.a := rfl
@[simp] theorem compare_x (r m : Byte) : (c.compare r m).x = c.x := rfl
@[simp] theorem compare_y (r m : Byte) : (c.compare r m).y = c.y := rfl
@[simp] theorem compare_s (r m : Byte) : (c.compare r m).s = c.s := rfl
@[simp] theorem compare_pc (r m : Byte) : (c.compare r m).pc = c.pc := rfl
@[simp] theorem compare_p (r m : Byte) : (c.compare r m).p = putFlag (putFlag (putFlag c.p .c (decide (m.toNat ≤ r.toNat))) .z (r == m)) .n ((r - m).getLsbD 7) := rfl
@[simp] theorem compare_phase (r m : Byte) : (c.compare r m).phase = c.phase := rfl
@[simp] theorem compare_micro (r m : Byte) : (c.compare r m).micro = c.micro := rfl
@[simp] theorem compare_latches (r m : Byte) : (c.compare r m).latches = c.latches := rfl
@[simp] theorem compare_nmi (r m : Byte) : (c.compare r m).nmi = c.nmi := rfl
@[simp] theorem compare_irq (r m : Byte) : (c.compare r m).irq = c.irq := rfl
@[simp] theorem compare_cycles (r m : Byte) : (c.compare r m).cycles = c.cycles := rfl
@[simp] theorem compare_instructions (r m : Byte) : (c.compare r m).instructions = c.instructions := rfl
@[simp] theorem compare_invalid (r m : Byte) : (c.compare r m).invalid = c.invalid := rfl

@[simp] theorem setAluFlags_a (r : AluResult) : (c.setAluFlags r).a = c.a := rfl
@[simp] theorem setAluFlags_x (r : AluResult) : (c.setAluFlags r).x = c.x := rfl
@[simp] theorem setAluFlags_y (r : AluResult) : (c.setAluFlags r).y = c.y := rfl
@[simp] theorem setAluFlags_s (r : AluResult) : (c.setAluFlags r).s = c.s := rfl
@[simp] theorem setAluFlags_pc (r : AluResult) : (c.setAluFlags r).pc = c.pc := rfl
@[simp] theorem setAluFlags_p (r : AluResult) : (c.setAluFlags r).p = putFlag (putFlag (putFlag (putFlag c.p .c r.c) .v r.v) .z r.z) .n r.n := rfl
@[simp] theorem setAluFlags_phase (r : AluResult) : (c.setAluFlags r).phase = c.phase := rfl
@[simp] theorem setAluFlags_micro (r : AluResult) : (c.setAluFlags r).micro = c.micro := rfl
@[simp] theorem setAluFlags_latches (r : AluResult) : (c.setAluFlags r).latches = c.latches := rfl
@[simp] theorem setAluFlags_nmi (r : AluResult) : (c.setAluFlags r).nmi = c.nmi := rfl
@[simp] theorem setAluFlags_irq (r : AluResult) : (c.setAluFlags r).irq = c.irq := rfl
@[simp] theorem setAluFlags_cycles (r : AluResult) : (c.setAluFlags r).cycles = c.cycles := rfl
@[simp] theorem setAluFlags_instructions (r : AluResult) : (c.setAluFlags r).instructions = c.instructions := rfl
@[simp] theorem setAluFlags_invalid (r : AluResult) : (c.setAluFlags r).invalid = c.invalid := rfl

@[simp] theorem halt_a : c.halt.a = c.a := rfl
@[simp] theorem halt_x : c.halt.x = c.x := rfl
@[simp] theorem halt_y : c.halt.y = c.y := rfl
@[simp] theorem halt_s : c.halt.s = c.s := rfl
@[simp] theorem halt_pc : c.halt.pc = c.pc := rfl
@[simp] theorem halt_p : c.halt.p = c.p := rfl
@[simp] theorem halt_phase : c.halt.phase = .halted := rfl
@[simp] theorem halt_micro : c.halt.micro = c.micro := rfl
@[simp] theorem halt_latches : c.halt.latches = c.latches := rfl
@[simp] theorem halt_nmi : c.halt.nmi = c.nmi := rfl
@[simp] theorem halt_irq : c.halt.irq = c.irq := rfl
@[simp] theorem halt_cycles : c.halt.cycles = c.cycles := rfl
@[simp] theorem halt_instructions : c.halt.instructions = c.instructions := rfl
@[simp] theorem halt_invalid : c.halt.invalid = c.invalid := rfl

@[simp] theorem toIdle_a : c.toIdle.a = c.a := rfl
@[simp] theorem toIdle_x : c.toIdle.x = c.x := rfl
@[simp] theorem toIdle_y : c.toIdle.y = c.y := rfl
@[simp] theorem toIdle_s : c.toIdle.s = c.s := rfl
@[simp] theorem toIdle_pc : c.toIdle.pc = c.pc := rfl
@[simp] theorem toIdle_p : c.toIdle.p = c.p := rfl
@[simp] theorem toIdle_phase : c.toIdle.phase = .idle := rfl
@[simp] theorem toIdle_micro : c.toIdle.micro = 0 := rfl
@[simp] theorem toIdle_latches : c.toIdle.latches = {} := rfl
@[simp] theorem toIdle_nmi : c.toIdle.nmi = c.nmi := rfl
@[simp] theorem toIdle_irq : c.toIdle.irq = c.irq := rfl
@[simp] theorem toIdle_cycles : c.toIdle.cycles = c.cycles := rfl
@[simp] theorem toIdle_instructions : c.toIdle.instructions = c.instructions := rfl
@[simp] theorem toIdle_invalid : c.toIdle.invalid = c.invalid := rfl

@[simp] theorem goOn_a (ph : Phase) : (c.goOn ph).a = c.a := rfl
@[simp] theorem goOn_x (ph : Phase) : (c.goOn ph).x = c.x := rfl
@[simp] theorem goOn_y (ph : Phase) : (c.goOn ph).y = c.y := rfl
@[simp] theorem goOn_s (ph : Phase) : (c.goOn ph).s = c.s := rfl
@[simp] theorem goOn_pc (ph : Phase) : (c.goOn ph).pc = c.pc := rfl
@[simp] theorem goOn_p (ph : Phase) : (c.goOn ph).p = c.p := rfl
@[simp] theorem goOn_phase (ph : Phase) : (c.goOn ph).phase = ph := rfl
@[simp] theorem goOn_micro (ph : Phase) : (c.goOn ph).micro = c.micro + 1 := rfl
@[simp] theorem goOn_latches (ph : Phase) : (c.goOn ph).latches = c.latches := rfl
@[simp] theorem goOn_nmi (ph : Phase) : (c.goOn ph).nmi = c.nmi := rfl
@[simp] theorem goOn_irq (ph : Phase) : (c.goOn ph).irq = c.irq := rfl
@[simp] theorem goOn_cycles (ph : Phase) : (c.goOn ph).cycles = c.cycles := rfl
@[simp] theorem goOn_instructions (ph : Phase) : (c.goOn ph).instructions = c.instructions := rfl
@[simp] theorem goOn_invalid (ph : Phase) : (c.goOn ph).invalid = c.invalid := rfl

@[simp] theorem latch_a (f : Latches → Latches) : (c.latch f).a = c.a := rfl
@[simp] theorem latch_x (f : Latches → Latches) : (c.latch f).x = c.x := rfl
@[simp] theorem latch_y (f : Latches → Latches) : (c.latch f).y = c.y := rfl
@[simp] theorem latch_s (f : Latches → Latches) : (c.latch f).s = c.s := rfl
@[simp] theorem latch_pc (f : Latches → Latches) : (c.latch f).pc = c.pc := rfl
@[simp] theorem latch_p (f : Latches → Latches) : (c.latch f).p = c.p := rfl
@[simp] theorem latch_phase (f : Latches → Latches) : (c.latch f).phase = c.phase := rfl
@[simp] theorem latch_micro (f : Latches → Latches) : (c.latch f).micro = c.micro := rfl
@[simp] theorem latch_latches (f : Latches → Latches) : (c.latch f).latches = f c.latches := rfl
@[simp] theorem latch_nmi (f : Latches → Latches) : (c.latch f).nmi = c.nmi := rfl
@[simp] theorem latch_irq (f : Latches → Latches) : (c.latch f).irq = c.irq := rfl
@[simp] theorem latch_cycles (f : Latches → Latches) : (c.latch f).cycles = c.cycles := rfl
@[simp] theorem latch_instructions (f : Latches → Latches) : (c.latch f).instructions = c.instructions := rfl
@[simp] theorem latch_invalid (f : Latches → Latches) : (c.latch f).invalid = c.invalid := rfl

end Sys2Proof.Machine
end

