-- ==== Sys2Proof/Laws/Ops.lean ====
section
/-! SUPPORT. One lemma per shared operation and component: what a bus cycle, a fetch, a push, a pull, an entry to a handler and a
return from one leave in the core and in memory. -/

namespace Sys2Proof.Machine

variable (s : State)

@[simp] theorem mapCpu_cpu (f : Cpu → Cpu) : (s.mapCpu f).cpu = f s.cpu := rfl
@[simp] theorem mapCpu_bus (f : Cpu → Cpu) : (s.mapCpu f).bus = s.bus := rfl

@[simp] theorem busRead_value (a : Word) : (s.busRead a).1 = memRead s.bus.mem a := rfl
@[simp] theorem busRead_cpu (a : Word) : (s.busRead a).2.cpu = s.cpu.tick := rfl
@[simp] theorem busRead_mem (a : Word) : (s.busRead a).2.bus.mem = s.bus.mem := rfl
@[simp] theorem busRead_log (a : Word) : (s.busRead a).2.bus.log = .read a (memRead s.bus.mem a) :: s.bus.log := rfl

@[simp] theorem busWrite_cpu (a : Word) (v : Byte) : (s.busWrite a v).cpu = s.cpu.tick := rfl
@[simp] theorem busWrite_mem (a : Word) (v : Byte) : (s.busWrite a v).bus.mem = memWrite s.bus.mem a v := rfl
@[simp] theorem busWrite_log (a : Word) (v : Byte) : (s.busWrite a v).bus.log = .write a v :: s.bus.log := rfl

@[simp] theorem dummyRead_cpu (a : Word) : (s.dummyRead a).cpu = s.cpu.tick := rfl
@[simp] theorem dummyRead_mem (a : Word) : (s.dummyRead a).bus.mem = s.bus.mem := rfl
@[simp] theorem dummyRead_log (a : Word) : (s.dummyRead a).bus.log = .read a (memRead s.bus.mem a) :: s.bus.log := rfl

@[simp] theorem dummyPc_cpu : s.dummyPc.cpu = s.cpu.tick := rfl
@[simp] theorem dummyPc_mem : s.dummyPc.bus.mem = s.bus.mem := rfl
@[simp] theorem dummyPc_log : s.dummyPc.bus.log = .read s.cpu.pc (memRead s.bus.mem s.cpu.pc) :: s.bus.log := rfl

@[simp] theorem dummyStack_cpu : s.dummyStack.cpu = s.cpu.tick := rfl
@[simp] theorem dummyStack_mem : s.dummyStack.bus.mem = s.bus.mem := rfl
@[simp] theorem dummyStack_log :
    s.dummyStack.bus.log = .read (stackAddr s.cpu.s) (memRead s.bus.mem (stackAddr s.cpu.s)) :: s.bus.log := rfl

@[simp] theorem fetched_cpu : s.fetched.cpu = s.cpu.tick.incPc := rfl
@[simp] theorem fetched_mem : s.fetched.bus.mem = s.bus.mem := rfl
@[simp] theorem fetched_log : s.fetched.bus.log = .read s.cpu.pc (memRead s.bus.mem s.cpu.pc) :: s.bus.log := rfl

@[simp] theorem retire_cpu : s.retire.cpu = s.cpu.retire := rfl
@[simp] theorem retire_bus : s.retire.bus = s.bus := rfl

@[simp] theorem push_cpu (v : Byte) : (s.push v).cpu = s.cpu.tick.decS := rfl
@[simp] theorem push_mem (v : Byte) : (s.push v).bus.mem = memWrite s.bus.mem (stackAddr s.cpu.s) v := rfl
@[simp] theorem push_log (v : Byte) : (s.push v).bus.log = .write (stackAddr s.cpu.s) v :: s.bus.log := rfl

@[simp] theorem pull_value : s.pull.1 = memRead s.bus.mem (stackAddr (s.cpu.s + 1)) := rfl
@[simp] theorem pull_cpu : s.pull.2.cpu = s.cpu.incS.tick := rfl
@[simp] theorem pull_mem : s.pull.2.bus.mem = s.bus.mem := rfl
@[simp] theorem pull_log :
    s.pull.2.bus.log =
      .read (stackAddr (s.cpu.s + 1)) (memRead s.bus.mem (stackAddr (s.cpu.s + 1))) :: s.bus.log := rfl

/-- The memory an entry to a handler leaves: PC and the status pushed, PC high first (R216, R217). -/
def entryMem (m : Memory) (sp : Byte) (pc : Word) (status : Byte) : Memory :=
  memWrite (memWrite (memWrite m (stackAddr sp) (hiByte pc)) (stackAddr (sp - 1)) (loByte pc)) (stackAddr (sp - 1 - 1)) status

@[simp] theorem entryMem_wf {m : Memory} (wf : Memory.wf m = true) (sp : Byte) (pc : Word) (status : Byte) :
    Memory.wf (entryMem m sp pc status) = true := memWrite_wf (memWrite_wf (memWrite_wf wf _ _) _ _) _ _

/-- The core an entry to a handler leaves (R216, R217, R233). -/
theorem enterHandler_cpu (status : Byte) (v : Word) :
    (s.enterHandler status v).cpu =
      { s.cpu with
        s := s.cpu.s - 1 - 1 - 1
        p := putFlag s.cpu.p .i true
        pc := memRead16 (entryMem s.bus.mem s.cpu.s s.cpu.pc status) v
        cycles := s.cpu.cycles + 5 } := by
  simp [State.enterHandler, entryMem, memRead16, Cpu.tick, Cpu.decS, Cpu.jump, Cpu.setFlag]

theorem enterHandler_mem (status : Byte) (v : Word) :
    (s.enterHandler status v).bus.mem = entryMem s.bus.mem s.cpu.s s.cpu.pc status := by
  simp [State.enterHandler, entryMem, Cpu.tick, Cpu.decS]

/-- The core an interrupt sequence leaves (R217, R233). -/
theorem interruptSequence_cpu (v : Word) :
    (s.interruptSequence v).cpu =
      { s.cpu with
        s := s.cpu.s - 1 - 1 - 1
        p := putFlag s.cpu.p .i true
        pc := memRead16 (entryMem s.bus.mem s.cpu.s s.cpu.pc s.cpu.statusForInterrupt) v
        cycles := s.cpu.cycles + 7 } := by
  simp [State.interruptSequence, enterHandler_cpu, Cpu.tick]

theorem interruptSequence_mem (v : Word) :
    (s.interruptSequence v).bus.mem = entryMem s.bus.mem s.cpu.s s.cpu.pc s.cpu.statusForInterrupt := by
  simp [State.interruptSequence, enterHandler_mem, Cpu.tick]

/-- The core a return from a handler leaves (R151, R215). -/
theorem returnFromHandler_cpu :
    s.returnFromHandler.cpu =
      { s.cpu with
        s := s.cpu.s + 1 + 1 + 1
        p := setPValue s.cpu.p (memRead s.bus.mem (stackAddr (s.cpu.s + 1)))
        pc := mkWord (memRead s.bus.mem (stackAddr (s.cpu.s + 1 + 1 + 1))) (memRead s.bus.mem (stackAddr (s.cpu.s + 1 + 1)))
        cycles := s.cpu.cycles + 3 } := by
  simp [State.returnFromHandler, Cpu.tick, Cpu.incS, Cpu.setP, Cpu.jump]

theorem returnFromHandler_mem : s.returnFromHandler.bus.mem = s.bus.mem := by simp [State.returnFromHandler]

/-- Reset gives every field its value and leaves memory alone (R241, R242). -/
theorem hostReset_cpu : s.hostReset.cpu = Cpu.afterReset (memRead16 s.bus.mem Config.resetVector) := rfl

theorem hostReset_mem : s.hostReset.bus.mem = s.bus.mem := rfl

/-- The machine right after reset is what a reset leaves of any core whose memory lists nothing (R241). -/
theorem reset_eq_hostReset (c : Cpu) : State.hostReset ⟨c, ⟨[], []⟩⟩ = State.reset :=
  show State.hostReset ⟨Cpu.afterReset 0, ⟨[], []⟩⟩ = State.reset by decide

end Sys2Proof.Machine
end

