-- ==== Sys2Proof/Laws/Access.lean ====
section
/-! SUPPORT. What the address cycles and the data cycles of every operand form leave (R202 to R209): the address cycles of a mode
end where the resolver says, and each access class's cycles then leave one core and one memory. -/

namespace Sys2Proof.Machine

/-- The uncorrected address is the address where no page was crossed (R92). -/
theorem uncorrected_eq {base : Word} {i : Byte} (h : pageCrossed base i = false) : uncorrected base i = baseIndexed base i := by
  apply BitVec.eq_of_toNat_eq
  have hb := base.isLt
  have hi := i.isLt
  simp only [pageCrossed, decide_eq_false_iff_not, loByte_toNat] at h
  simp only [uncorrected, baseIndexed, mkWord_toNat, hiByte_toNat, BitVec.toNat_add, loByte_toNat, zeroPage_toNat]
  omega

/-- The address cycles `l` of mode `mode` with operand bytes `b1`, `b2` from state `s`: they end at the resolver's address, the
instruction's length and the mode's address cycles on, with memory untouched. -/
structure Reaches (l : Located) (mode : Mode) (b1 b2 : Byte) (s : State) : Prop where
  resolved : resolve mode b1 b2 s = .addr l.ea0 l.ea l.crossed
  indexed : l.indexed = mode.indexesBase
  direct : l.crossed = true → l.indexed = true
  uncorrected : l.crossed = false → l.ea0 = l.ea
  cpu : l.st.cpu =
    { s.cpu with
      pc := s.cpu.pc + BitVec.ofNat 16 (mode.operandBytes + 1)
      cycles := s.cpu.cycles + mode.addressCycles }
  mem : l.st.bus.mem = s.bus.mem

/-- The modes that have an operand in memory. -/
def hasAddress : Mode → Bool
  | .implied | .accumulator | .immediate | .relative | .indirect => false
  | _ => true

/-- The address cycles of a mode that has a memory operand. -/
def locate (mode : Mode) (b1 b2 : Byte) (s : State) : Located :=
  match mode with
  | .zeropage => locZeropage b1 s
  | .zeropageX => locZeropageIndexed .x b1 s
  | .zeropageY => locZeropageIndexed .y b1 s
  | .absoluteX => locAbsoluteIndexed .x (mkWord b2 b1) s
  | .absoluteY => locAbsoluteIndexed .y (mkWord b2 b1) s
  | .indirectX => locIndirectX b1 s
  | .indirectY => locIndirectY b1 s
  | _ => locAbsolute (mkWord b2 b1) s

variable (s : State)

theorem Word.add_one_one (w : Word) : w + 1 + 1 = w + 2 := by rw [BitVec.add_assoc]; rfl
theorem Word.add_two_one (w : Word) : w + 2 + 1 = w + 3 := by rw [BitVec.add_assoc]; rfl

theorem fetched2_cpu : s.fetched.fetched.cpu = { s.cpu with pc := s.cpu.pc + 2, cycles := s.cpu.cycles + 2 } := by
  simp only [fetched_cpu, Cpu.tick, Cpu.incPc, Word.add_one_one]

theorem fetched3_cpu :
    s.fetched.fetched.fetched.cpu = { s.cpu with pc := s.cpu.pc + 3, cycles := s.cpu.cycles + 3 } := by
  simp only [fetched_cpu, Cpu.tick, Cpu.incPc, Word.add_one_one, Word.add_two_one]

/-- The address cycles of every mode end where the resolver says (R80, R85 to R96, R202 to R208). -/
theorem locate_reaches {mode : Mode} (h : hasAddress mode = true) (b1 b2 : Byte) : Reaches (locate mode b1 b2 s) mode b1 b2 s := by
  cases mode with
  | implied | accumulator | immediate | relative | indirect => cases h
  | absoluteX | absoluteY | indirectY =>
    refine ⟨?_, rfl, fun _ => rfl, fun c => uncorrected_eq c, ?_, ?_⟩ <;>
      simp [locate, locAbsoluteIndexed, locIndirectY, resolve, Resolved.indexed, zpPointer, Located.onBase, Cpu.index, Cpu.tick,
        Cpu.incPc, Mode.operandBytes, Mode.addressCycles, BitVec.add_assoc]
  | zeropage | zeropageX | zeropageY | absolute | indirectX =>
    refine ⟨?_, rfl, nofun, fun _ => rfl, ?_, ?_⟩ <;>
      simp [locate, locZeropage, locZeropageIndexed, locAbsolute, locIndirectX, resolve, Resolved.direct, zpPointer,
        Located.direct, Cpu.index, Cpu.tick, Cpu.incPc, Mode.operandBytes, Mode.addressCycles, BitVec.add_assoc]

/-! ## Data cycles -/

/-- Read class: the byte at the uncorrected address, or at the address after a page cross, and the effect on it. -/
theorem readAt_cpu (f : Byte → Cpu → Cpu) (l : Located) :
    (readAt f l).cpu =
      (f (memRead l.st.bus.mem (if l.crossed then l.ea else l.ea0))
        { l.st.cpu with cycles := l.st.cpu.cycles + if l.crossed then 2 else 1 }).retire := by
  cases h : l.crossed <;> simp [readAt, h, Cpu.tick]

theorem readAt_mem (f : Byte → Cpu → Cpu) (l : Located) : (readAt f l).bus.mem = l.st.bus.mem := by
  cases h : l.crossed <;> simp [readAt, h]

@[simp] theorem uncorrectedRead_cpu (l : Located) :
    l.uncorrectedRead.cpu = { l.st.cpu with cycles := l.st.cpu.cycles + if l.indexed then 1 else 0 } := by
  cases h : l.indexed <;> simp [Located.uncorrectedRead, h, Cpu.tick]

@[simp] theorem uncorrectedRead_mem (l : Located) : l.uncorrectedRead.bus.mem = l.st.bus.mem := by
  cases h : l.indexed <;> simp [Located.uncorrectedRead, h]

/-- Write class: the value stored at the address. -/
theorem writeAt_cpu (value : Cpu → Byte) (l : Located) :
    (writeAt value l).cpu =
      ({ l.st.cpu with cycles := l.st.cpu.cycles + if l.indexed then 2 else 1 } : Cpu).retire := by
  cases h : l.indexed <;> simp [writeAt, h, Cpu.tick]

theorem writeAt_mem (value : Cpu → Byte) (l : Located) :
    (writeAt value l).bus.mem = memWrite l.st.bus.mem l.ea (value l.uncorrectedRead.cpu) := by simp [writeAt]

/-- Read-modify-write class: the core the effect leaves. -/
theorem modifyAt_cpu (f : Byte → Cpu → Byte × Cpu) (l : Located) :
    (modifyAt f l).cpu =
      (f (memRead l.st.bus.mem l.ea)
        { l.st.cpu with cycles := l.st.cpu.cycles + if l.indexed then 3 else 2 }).2.tick.retire := by
  cases h : l.indexed <;> simp [modifyAt, h, Cpu.tick]

/-- Read-modify-write class: the unmodified byte and then the result stored at the address (R209). -/
theorem modifyAt_mem (f : Byte → Cpu → Byte × Cpu) (l : Located) :
    (modifyAt f l).bus.mem =
      memWrite (memWrite l.st.bus.mem l.ea (memRead l.st.bus.mem l.ea)) l.ea
        (f (memRead l.st.bus.mem l.ea)
          { l.st.cpu with cycles := l.st.cpu.cycles + if l.indexed then 3 else 2 }).1 := by
  cases h : l.indexed <;> simp [modifyAt, h, Cpu.tick]

/-! ## The bus accesses, newest first -/

/-- The bus accesses of a mode's address cycles (R202 to R208), oldest first. -/
def locateAccesses (mode : Mode) (b1 : Byte) (s : State) : List BusEvent :=
  let rd (a : Word) : BusEvent := .read a (memRead s.bus.mem a)
  let two := [rd s.cpu.pc, rd (s.cpu.pc + 1)]
  match mode with
  | .zeropage => two
  | .zeropageX | .zeropageY => two ++ [rd (zeroPage b1)]
  | .indirectX => two ++ [rd (zeroPage b1), rd (zeroPage (b1 + s.cpu.x)), rd (zeroPage (b1 + s.cpu.x + 1))]
  | .indirectY => two ++ [rd (zeroPage b1), rd (zeroPage (b1 + 1))]
  | _ => two ++ [rd (s.cpu.pc + 2)]

theorem locate_log (mode : Mode) (b1 b2 : Byte) :
    (locate mode b1 b2 s).st.bus.log = (locateAccesses mode b1 s).reverse ++ s.bus.log := by
  cases mode <;>
    simp [locate, locateAccesses, locAbsolute, locAbsoluteIndexed, locZeropage, locZeropageIndexed, locIndirectX, locIndirectY,
      Located.direct, Located.onBase, BitVec.add_assoc, Cpu.incPc, Cpu.tick]

theorem readAt_log (f : Byte → Cpu → Cpu) (l : Located) :
    (readAt f l).bus.log =
      (if l.crossed then [.read l.ea (memRead l.st.bus.mem l.ea)] else []) ++
        .read l.ea0 (memRead l.st.bus.mem l.ea0) :: l.st.bus.log := by
  cases h : l.crossed <;> simp [readAt, h]

@[simp] theorem uncorrectedRead_log (l : Located) :
    l.uncorrectedRead.bus.log =
      (if l.indexed then [.read l.ea0 (memRead l.st.bus.mem l.ea0)] else []) ++ l.st.bus.log := by
  cases h : l.indexed <;> simp [Located.uncorrectedRead, h]

theorem writeAt_log (value : Cpu → Byte) (l : Located) :
    (writeAt value l).bus.log = .write l.ea (value l.uncorrectedRead.cpu) :: l.uncorrectedRead.bus.log := by simp [writeAt]

theorem unstableWriteAt_log (regs : Cpu → Byte × Cpu) (l : Located) :
    (unstableWriteAt regs l).bus.log =
      .write (shAddr (shValue (regs l.uncorrectedRead.cpu).1 l.ea0) l.ea l.crossed) (shValue (regs l.uncorrectedRead.cpu).1 l.ea0) ::
        l.uncorrectedRead.bus.log := by simp [unstableWriteAt]

theorem modifyAt_log (f : Byte → Cpu → Byte × Cpu) (l : Located) :
    (modifyAt f l).bus.log =
      .write l.ea (f (memRead l.st.bus.mem l.ea)
          { l.st.cpu with cycles := l.st.cpu.cycles + if l.indexed then 3 else 2 }).1 ::
        .write l.ea (memRead l.st.bus.mem l.ea) :: .read l.ea (memRead l.st.bus.mem l.ea) :: l.uncorrectedRead.bus.log := by
  cases h : l.indexed <;> simp [modifyAt, h, Cpu.tick]

end Sys2Proof.Machine
end

