-- ==== Sys2Proof/Laws/Exec.lean ====
section
/-! SUPPORT. The instructions through their table entries: `exec` of any instruction is what its entry's class, mode and mnemonic
say (`exec_eq_runRow`). -/

namespace Sys2Proof.Machine

/-- A control entry's instruction. -/
def runControl (mn : Mnemonic) (mode : Mode) (b1 b2 : Byte) (s : State) : State :=
  match mn with
  | .jmp => if mode = .indirect then jumpIndirect (mkWord b2 b1) s else jumpAbsolute (mkWord b2 b1) s
  | .jsr => jumpToSubroutine (mkWord b2 b1) s
  | .rts => returnFromSubroutine s
  | .rti => returnFromInterrupt s
  | .brk => breakInterrupt s
  | .pha => pushValue Cpu.opPha s
  | .php => pushValue Cpu.opPhp s
  | .pla => pullValue Cpu.opPla s
  | .plp => pullValue Cpu.opPlp s
  | mn =>
    if mode = .relative then branch (branchCondition mn).1 (branchCondition mn).2 b1 s
    else if mode = .accumulator then implied (onAccumulator (modifyEffect mn)) s
    else implied (impliedEffect mn) s

/-- A table entry's instruction. -/
def runRow (r : Row) (b1 b2 : Byte) (s : State) : State :=
  match r.cls with
  | .halt => s.jam
  | .control => runControl r.mnemonic r.mode b1 b2 s
  | .read =>
    if r.mode = .immediate then immediate (readEffect {} r.mnemonic) b1 s
    else readAt (readEffect {} r.mnemonic) (locate r.mode b1 b2 s)
  | .write =>
    match unstableEffect r.mnemonic with
    | none => writeAt (writeEffect r.mnemonic) (locate r.mode b1 b2 s)
    | some regs => unstableWriteAt regs (locate r.mode b1 b2 s)
  | .rmw => modifyAt (modifyEffect r.mnemonic) (locate r.mode b1 b2 s)

/-- A word operand is its two bytes. -/
theorem onWord (f : Word → Result) {w : Word} {r : Result} (h : f (mkWord (hiByte w) (loByte w)) = r) : f w = r := by
  rw [← h, mkWord_hiByte_loByte]

/-- An instruction with opcode `op` has that opcode's entry. -/
theorem entry {i : Instr} {r : Row} (op : Byte) (h : opcodeTable op = some r) (e : i.opcode = op := by rfl) : i.row? = some r := by
  rw [← h, ← e]; rfl

/-- Every instruction runs as its table entry says. -/
theorem exec_eq_runRow (i : Instr) (h : i.opcodeOk = true) (s : State) :
    ∃ r, i.row? = some r ∧ exec i s = .next (runRow r i.b1 i.b2 s) := by
  cases i with
  | brk => exact ⟨⟨.brk, .implied, 7, false, false, .control⟩, entry 0x00 (by decide), rfl⟩
  | oraIndX zp => exact ⟨⟨.ora, .indirectX, 6, false, false, .read⟩, entry 0x01 (by decide), rfl⟩
  | jam op =>
    have e : ∀ op ∈ jamOpcodes, opcodeTable op = some ⟨.jam, .implied, 1, false, true, .halt⟩ := by decide
    exact ⟨_, entry op (e op (List.contains_iff_mem.mp h)), rfl⟩
  | sloIndX zp => exact ⟨⟨.slo, .indirectX, 8, false, true, .rmw⟩, entry 0x03 (by decide), rfl⟩
  | nopZp op zp =>
    have e : ∀ op ∈ nopZpOpcodes, opcodeTable op = some ⟨.nop, .zeropage, 3, false, true, .read⟩ := by decide
    exact ⟨_, entry op (e op (List.contains_iff_mem.mp h)), rfl⟩
  | oraZp zp => exact ⟨⟨.ora, .zeropage, 3, false, false, .read⟩, entry 0x05 (by decide), rfl⟩
  | aslZp zp => exact ⟨⟨.asl, .zeropage, 5, false, false, .rmw⟩, entry 0x06 (by decide), rfl⟩
  | sloZp zp => exact ⟨⟨.slo, .zeropage, 5, false, true, .rmw⟩, entry 0x07 (by decide), rfl⟩
  | php => exact ⟨⟨.php, .implied, 3, false, false, .control⟩, entry 0x08 (by decide), rfl⟩
  | oraImm m => exact ⟨⟨.ora, .immediate, 2, false, false, .read⟩, entry 0x09 (by decide), rfl⟩
  | aslAcc => exact ⟨⟨.asl, .accumulator, 2, false, false, .control⟩, entry 0x0A (by decide), rfl⟩
  | ancImm op m =>
    have e : ∀ op ∈ ancOpcodes, opcodeTable op = some ⟨.anc, .immediate, 2, false, true, .read⟩ := by decide
    exact ⟨_, entry op (e op (List.contains_iff_mem.mp h)), rfl⟩
  | nopAbs addr => exact ⟨⟨.nop, .absolute, 4, false, true, .read⟩, entry 0x0C (by decide), onWord (fun w => exec (.nopAbs w) s) rfl⟩
  | oraAbs addr => exact ⟨⟨.ora, .absolute, 4, false, false, .read⟩, entry 0x0D (by decide), onWord (fun w => exec (.oraAbs w) s) rfl⟩
  | aslAbs addr => exact ⟨⟨.asl, .absolute, 6, false, false, .rmw⟩, entry 0x0E (by decide), onWord (fun w => exec (.aslAbs w) s) rfl⟩
  | sloAbs addr => exact ⟨⟨.slo, .absolute, 6, false, true, .rmw⟩, entry 0x0F (by decide), onWord (fun w => exec (.sloAbs w) s) rfl⟩
  | bpl off => exact ⟨⟨.bpl, .relative, 2, false, false, .control⟩, entry 0x10 (by decide), rfl⟩
  | oraIndY zp => exact ⟨⟨.ora, .indirectY, 5, true, false, .read⟩, entry 0x11 (by decide), rfl⟩
  | sloIndY zp => exact ⟨⟨.slo, .indirectY, 8, false, true, .rmw⟩, entry 0x13 (by decide), rfl⟩
  | nopZpX op zp =>
    have e : ∀ op ∈ nopZpXOpcodes, opcodeTable op = some ⟨.nop, .zeropageX, 4, false, true, .read⟩ := by decide
    exact ⟨_, entry op (e op (List.contains_iff_mem.mp h)), rfl⟩
  | oraZpX zp => exact ⟨⟨.ora, .zeropageX, 4, false, false, .read⟩, entry 0x15 (by decide), rfl⟩
  | aslZpX zp => exact ⟨⟨.asl, .zeropageX, 6, false, false, .rmw⟩, entry 0x16 (by decide), rfl⟩
  | sloZpX zp => exact ⟨⟨.slo, .zeropageX, 6, false, true, .rmw⟩, entry 0x17 (by decide), rfl⟩
  | clc => exact ⟨⟨.clc, .implied, 2, false, false, .control⟩, entry 0x18 (by decide), rfl⟩
  | oraAbsY addr => exact ⟨⟨.ora, .absoluteY, 4, true, false, .read⟩, entry 0x19 (by decide), onWord (fun w => exec (.oraAbsY w) s) rfl⟩
  | nopImp op =>
    have e : ∀ op ∈ nopImpOpcodes, opcodeTable op = some ⟨.nop, .implied, 2, false, true, .control⟩ := by decide
    exact ⟨_, entry op (e op (List.contains_iff_mem.mp h)), rfl⟩
  | sloAbsY addr => exact ⟨⟨.slo, .absoluteY, 7, false, true, .rmw⟩, entry 0x1B (by decide), onWord (fun w => exec (.sloAbsY w) s) rfl⟩
  | nopAbsX op addr =>
    have e : ∀ op ∈ nopAbsXOpcodes, opcodeTable op = some ⟨.nop, .absoluteX, 4, true, true, .read⟩ := by decide
    exact ⟨_, entry op (e op (List.contains_iff_mem.mp h)), onWord (fun w => exec (.nopAbsX op w) s) rfl⟩
  | oraAbsX addr => exact ⟨⟨.ora, .absoluteX, 4, true, false, .read⟩, entry 0x1D (by decide), onWord (fun w => exec (.oraAbsX w) s) rfl⟩
  | aslAbsX addr => exact ⟨⟨.asl, .absoluteX, 7, false, false, .rmw⟩, entry 0x1E (by decide), onWord (fun w => exec (.aslAbsX w) s) rfl⟩
  | sloAbsX addr => exact ⟨⟨.slo, .absoluteX, 7, false, true, .rmw⟩, entry 0x1F (by decide), onWord (fun w => exec (.sloAbsX w) s) rfl⟩
  | jsr target => exact ⟨⟨.jsr, .absolute, 6, false, false, .control⟩, entry 0x20 (by decide), onWord (fun w => exec (.jsr w) s) rfl⟩
  | andIndX zp => exact ⟨⟨.and, .indirectX, 6, false, false, .read⟩, entry 0x21 (by decide), rfl⟩
  | rlaIndX zp => exact ⟨⟨.rla, .indirectX, 8, false, true, .rmw⟩, entry 0x23 (by decide), rfl⟩
  | bitZp zp => exact ⟨⟨.bit, .zeropage, 3, false, false, .read⟩, entry 0x24 (by decide), rfl⟩
  | andZp zp => exact ⟨⟨.and, .zeropage, 3, false, false, .read⟩, entry 0x25 (by decide), rfl⟩
  | rolZp zp => exact ⟨⟨.rol, .zeropage, 5, false, false, .rmw⟩, entry 0x26 (by decide), rfl⟩
  | rlaZp zp => exact ⟨⟨.rla, .zeropage, 5, false, true, .rmw⟩, entry 0x27 (by decide), rfl⟩
  | plp => exact ⟨⟨.plp, .implied, 4, false, false, .control⟩, entry 0x28 (by decide), rfl⟩
  | andImm m => exact ⟨⟨.and, .immediate, 2, false, false, .read⟩, entry 0x29 (by decide), rfl⟩
  | rolAcc => exact ⟨⟨.rol, .accumulator, 2, false, false, .control⟩, entry 0x2A (by decide), rfl⟩
  | bitAbs addr => exact ⟨⟨.bit, .absolute, 4, false, false, .read⟩, entry 0x2C (by decide), onWord (fun w => exec (.bitAbs w) s) rfl⟩
  | andAbs addr => exact ⟨⟨.and, .absolute, 4, false, false, .read⟩, entry 0x2D (by decide), onWord (fun w => exec (.andAbs w) s) rfl⟩
  | rolAbs addr => exact ⟨⟨.rol, .absolute, 6, false, false, .rmw⟩, entry 0x2E (by decide), onWord (fun w => exec (.rolAbs w) s) rfl⟩
  | rlaAbs addr => exact ⟨⟨.rla, .absolute, 6, false, true, .rmw⟩, entry 0x2F (by decide), onWord (fun w => exec (.rlaAbs w) s) rfl⟩
  | bmi off => exact ⟨⟨.bmi, .relative, 2, false, false, .control⟩, entry 0x30 (by decide), rfl⟩
  | andIndY zp => exact ⟨⟨.and, .indirectY, 5, true, false, .read⟩, entry 0x31 (by decide), rfl⟩
  | rlaIndY zp => exact ⟨⟨.rla, .indirectY, 8, false, true, .rmw⟩, entry 0x33 (by decide), rfl⟩
  | andZpX zp => exact ⟨⟨.and, .zeropageX, 4, false, false, .read⟩, entry 0x35 (by decide), rfl⟩
  | rolZpX zp => exact ⟨⟨.rol, .zeropageX, 6, false, false, .rmw⟩, entry 0x36 (by decide), rfl⟩
  | rlaZpX zp => exact ⟨⟨.rla, .zeropageX, 6, false, true, .rmw⟩, entry 0x37 (by decide), rfl⟩
  | sec => exact ⟨⟨.sec, .implied, 2, false, false, .control⟩, entry 0x38 (by decide), rfl⟩
  | andAbsY addr => exact ⟨⟨.and, .absoluteY, 4, true, false, .read⟩, entry 0x39 (by decide), onWord (fun w => exec (.andAbsY w) s) rfl⟩
  | rlaAbsY addr => exact ⟨⟨.rla, .absoluteY, 7, false, true, .rmw⟩, entry 0x3B (by decide), onWord (fun w => exec (.rlaAbsY w) s) rfl⟩
  | andAbsX addr => exact ⟨⟨.and, .absoluteX, 4, true, false, .read⟩, entry 0x3D (by decide), onWord (fun w => exec (.andAbsX w) s) rfl⟩
  | rolAbsX addr => exact ⟨⟨.rol, .absoluteX, 7, false, false, .rmw⟩, entry 0x3E (by decide), onWord (fun w => exec (.rolAbsX w) s) rfl⟩
  | rlaAbsX addr => exact ⟨⟨.rla, .absoluteX, 7, false, true, .rmw⟩, entry 0x3F (by decide), onWord (fun w => exec (.rlaAbsX w) s) rfl⟩
  | rti => exact ⟨⟨.rti, .implied, 6, false, false, .control⟩, entry 0x40 (by decide), rfl⟩
  | eorIndX zp => exact ⟨⟨.eor, .indirectX, 6, false, false, .read⟩, entry 0x41 (by decide), rfl⟩
  | sreIndX zp => exact ⟨⟨.sre, .indirectX, 8, false, true, .rmw⟩, entry 0x43 (by decide), rfl⟩
  | eorZp zp => exact ⟨⟨.eor, .zeropage, 3, false, false, .read⟩, entry 0x45 (by decide), rfl⟩
  | lsrZp zp => exact ⟨⟨.lsr, .zeropage, 5, false, false, .rmw⟩, entry 0x46 (by decide), rfl⟩
  | sreZp zp => exact ⟨⟨.sre, .zeropage, 5, false, true, .rmw⟩, entry 0x47 (by decide), rfl⟩
  | pha => exact ⟨⟨.pha, .implied, 3, false, false, .control⟩, entry 0x48 (by decide), rfl⟩
  | eorImm m => exact ⟨⟨.eor, .immediate, 2, false, false, .read⟩, entry 0x49 (by decide), rfl⟩
  | lsrAcc => exact ⟨⟨.lsr, .accumulator, 2, false, false, .control⟩, entry 0x4A (by decide), rfl⟩
  | alrImm m => exact ⟨⟨.alr, .immediate, 2, false, true, .read⟩, entry 0x4B (by decide), rfl⟩
  | jmpAbs target => exact ⟨⟨.jmp, .absolute, 3, false, false, .control⟩, entry 0x4C (by decide), onWord (fun w => exec (.jmpAbs w) s) rfl⟩
  | eorAbs addr => exact ⟨⟨.eor, .absolute, 4, false, false, .read⟩, entry 0x4D (by decide), onWord (fun w => exec (.eorAbs w) s) rfl⟩
  | lsrAbs addr => exact ⟨⟨.lsr, .absolute, 6, false, false, .rmw⟩, entry 0x4E (by decide), onWord (fun w => exec (.lsrAbs w) s) rfl⟩
  | sreAbs addr => exact ⟨⟨.sre, .absolute, 6, false, true, .rmw⟩, entry 0x4F (by decide), onWord (fun w => exec (.sreAbs w) s) rfl⟩
  | bvc off => exact ⟨⟨.bvc, .relative, 2, false, false, .control⟩, entry 0x50 (by decide), rfl⟩
  | eorIndY zp => exact ⟨⟨.eor, .indirectY, 5, true, false, .read⟩, entry 0x51 (by decide), rfl⟩
  | sreIndY zp => exact ⟨⟨.sre, .indirectY, 8, false, true, .rmw⟩, entry 0x53 (by decide), rfl⟩
  | eorZpX zp => exact ⟨⟨.eor, .zeropageX, 4, false, false, .read⟩, entry 0x55 (by decide), rfl⟩
  | lsrZpX zp => exact ⟨⟨.lsr, .zeropageX, 6, false, false, .rmw⟩, entry 0x56 (by decide), rfl⟩
  | sreZpX zp => exact ⟨⟨.sre, .zeropageX, 6, false, true, .rmw⟩, entry 0x57 (by decide), rfl⟩
  | cli => exact ⟨⟨.cli, .implied, 2, false, false, .control⟩, entry 0x58 (by decide), rfl⟩
  | eorAbsY addr => exact ⟨⟨.eor, .absoluteY, 4, true, false, .read⟩, entry 0x59 (by decide), onWord (fun w => exec (.eorAbsY w) s) rfl⟩
  | sreAbsY addr => exact ⟨⟨.sre, .absoluteY, 7, false, true, .rmw⟩, entry 0x5B (by decide), onWord (fun w => exec (.sreAbsY w) s) rfl⟩
  | eorAbsX addr => exact ⟨⟨.eor, .absoluteX, 4, true, false, .read⟩, entry 0x5D (by decide), onWord (fun w => exec (.eorAbsX w) s) rfl⟩
  | lsrAbsX addr => exact ⟨⟨.lsr, .absoluteX, 7, false, false, .rmw⟩, entry 0x5E (by decide), onWord (fun w => exec (.lsrAbsX w) s) rfl⟩
  | sreAbsX addr => exact ⟨⟨.sre, .absoluteX, 7, false, true, .rmw⟩, entry 0x5F (by decide), onWord (fun w => exec (.sreAbsX w) s) rfl⟩
  | rts => exact ⟨⟨.rts, .implied, 6, false, false, .control⟩, entry 0x60 (by decide), rfl⟩
  | adcIndX zp => exact ⟨⟨.adc, .indirectX, 6, false, false, .read⟩, entry 0x61 (by decide), rfl⟩
  | rraIndX zp => exact ⟨⟨.rra, .indirectX, 8, false, true, .rmw⟩, entry 0x63 (by decide), rfl⟩
  | adcZp zp => exact ⟨⟨.adc, .zeropage, 3, false, false, .read⟩, entry 0x65 (by decide), rfl⟩
  | rorZp zp => exact ⟨⟨.ror, .zeropage, 5, false, false, .rmw⟩, entry 0x66 (by decide), rfl⟩
  | rraZp zp => exact ⟨⟨.rra, .zeropage, 5, false, true, .rmw⟩, entry 0x67 (by decide), rfl⟩
  | pla => exact ⟨⟨.pla, .implied, 4, false, false, .control⟩, entry 0x68 (by decide), rfl⟩
  | adcImm m => exact ⟨⟨.adc, .immediate, 2, false, false, .read⟩, entry 0x69 (by decide), rfl⟩
  | rorAcc => exact ⟨⟨.ror, .accumulator, 2, false, false, .control⟩, entry 0x6A (by decide), rfl⟩
  | arrImm m => exact ⟨⟨.arr, .immediate, 2, false, true, .read⟩, entry 0x6B (by decide), rfl⟩
  | jmpInd ptr => exact ⟨⟨.jmp, .indirect, 5, false, false, .control⟩, entry 0x6C (by decide), onWord (fun w => exec (.jmpInd w) s) rfl⟩
  | adcAbs addr => exact ⟨⟨.adc, .absolute, 4, false, false, .read⟩, entry 0x6D (by decide), onWord (fun w => exec (.adcAbs w) s) rfl⟩
  | rorAbs addr => exact ⟨⟨.ror, .absolute, 6, false, false, .rmw⟩, entry 0x6E (by decide), onWord (fun w => exec (.rorAbs w) s) rfl⟩
  | rraAbs addr => exact ⟨⟨.rra, .absolute, 6, false, true, .rmw⟩, entry 0x6F (by decide), onWord (fun w => exec (.rraAbs w) s) rfl⟩
  | bvs off => exact ⟨⟨.bvs, .relative, 2, false, false, .control⟩, entry 0x70 (by decide), rfl⟩
  | adcIndY zp => exact ⟨⟨.adc, .indirectY, 5, true, false, .read⟩, entry 0x71 (by decide), rfl⟩
  | rraIndY zp => exact ⟨⟨.rra, .indirectY, 8, false, true, .rmw⟩, entry 0x73 (by decide), rfl⟩
  | adcZpX zp => exact ⟨⟨.adc, .zeropageX, 4, false, false, .read⟩, entry 0x75 (by decide), rfl⟩
  | rorZpX zp => exact ⟨⟨.ror, .zeropageX, 6, false, false, .rmw⟩, entry 0x76 (by decide), rfl⟩
  | rraZpX zp => exact ⟨⟨.rra, .zeropageX, 6, false, true, .rmw⟩, entry 0x77 (by decide), rfl⟩
  | sei => exact ⟨⟨.sei, .implied, 2, false, false, .control⟩, entry 0x78 (by decide), rfl⟩
  | adcAbsY addr => exact ⟨⟨.adc, .absoluteY, 4, true, false, .read⟩, entry 0x79 (by decide), onWord (fun w => exec (.adcAbsY w) s) rfl⟩
  | rraAbsY addr => exact ⟨⟨.rra, .absoluteY, 7, false, true, .rmw⟩, entry 0x7B (by decide), onWord (fun w => exec (.rraAbsY w) s) rfl⟩
  | adcAbsX addr => exact ⟨⟨.adc, .absoluteX, 4, true, false, .read⟩, entry 0x7D (by decide), onWord (fun w => exec (.adcAbsX w) s) rfl⟩
  | rorAbsX addr => exact ⟨⟨.ror, .absoluteX, 7, false, false, .rmw⟩, entry 0x7E (by decide), onWord (fun w => exec (.rorAbsX w) s) rfl⟩
  | rraAbsX addr => exact ⟨⟨.rra, .absoluteX, 7, false, true, .rmw⟩, entry 0x7F (by decide), onWord (fun w => exec (.rraAbsX w) s) rfl⟩
  | nopImm op m =>
    have e : ∀ op ∈ nopImmOpcodes, opcodeTable op = some ⟨.nop, .immediate, 2, false, true, .read⟩ := by decide
    exact ⟨_, entry op (e op (List.contains_iff_mem.mp h)), rfl⟩
  | staIndX zp => exact ⟨⟨.sta, .indirectX, 6, false, false, .write⟩, entry 0x81 (by decide), rfl⟩
  | saxIndX zp => exact ⟨⟨.sax, .indirectX, 6, false, true, .write⟩, entry 0x83 (by decide), rfl⟩
  | styZp zp => exact ⟨⟨.sty, .zeropage, 3, false, false, .write⟩, entry 0x84 (by decide), rfl⟩
  | staZp zp => exact ⟨⟨.sta, .zeropage, 3, false, false, .write⟩, entry 0x85 (by decide), rfl⟩
  | stxZp zp => exact ⟨⟨.stx, .zeropage, 3, false, false, .write⟩, entry 0x86 (by decide), rfl⟩
  | saxZp zp => exact ⟨⟨.sax, .zeropage, 3, false, true, .write⟩, entry 0x87 (by decide), rfl⟩
  | dey => exact ⟨⟨.dey, .implied, 2, false, false, .control⟩, entry 0x88 (by decide), rfl⟩
  | txa => exact ⟨⟨.txa, .implied, 2, false, false, .control⟩, entry 0x8A (by decide), rfl⟩
  | aneImm m => exact ⟨⟨.ane, .immediate, 2, false, true, .read⟩, entry 0x8B (by decide), rfl⟩
  | styAbs addr => exact ⟨⟨.sty, .absolute, 4, false, false, .write⟩, entry 0x8C (by decide), onWord (fun w => exec (.styAbs w) s) rfl⟩
  | staAbs addr => exact ⟨⟨.sta, .absolute, 4, false, false, .write⟩, entry 0x8D (by decide), onWord (fun w => exec (.staAbs w) s) rfl⟩
  | stxAbs addr => exact ⟨⟨.stx, .absolute, 4, false, false, .write⟩, entry 0x8E (by decide), onWord (fun w => exec (.stxAbs w) s) rfl⟩
  | saxAbs addr => exact ⟨⟨.sax, .absolute, 4, false, true, .write⟩, entry 0x8F (by decide), onWord (fun w => exec (.saxAbs w) s) rfl⟩
  | bcc off => exact ⟨⟨.bcc, .relative, 2, false, false, .control⟩, entry 0x90 (by decide), rfl⟩
  | staIndY zp => exact ⟨⟨.sta, .indirectY, 6, false, false, .write⟩, entry 0x91 (by decide), rfl⟩
  | shaIndY zp => exact ⟨⟨.sha, .indirectY, 6, false, true, .write⟩, entry 0x93 (by decide), rfl⟩
  | styZpX zp => exact ⟨⟨.sty, .zeropageX, 4, false, false, .write⟩, entry 0x94 (by decide), rfl⟩
  | staZpX zp => exact ⟨⟨.sta, .zeropageX, 4, false, false, .write⟩, entry 0x95 (by decide), rfl⟩
  | stxZpY zp => exact ⟨⟨.stx, .zeropageY, 4, false, false, .write⟩, entry 0x96 (by decide), rfl⟩
  | saxZpY zp => exact ⟨⟨.sax, .zeropageY, 4, false, true, .write⟩, entry 0x97 (by decide), rfl⟩
  | tya => exact ⟨⟨.tya, .implied, 2, false, false, .control⟩, entry 0x98 (by decide), rfl⟩
  | staAbsY addr => exact ⟨⟨.sta, .absoluteY, 5, false, false, .write⟩, entry 0x99 (by decide), onWord (fun w => exec (.staAbsY w) s) rfl⟩
  | txs => exact ⟨⟨.txs, .implied, 2, false, false, .control⟩, entry 0x9A (by decide), rfl⟩
  | tasAbsY addr => exact ⟨⟨.tas, .absoluteY, 5, false, true, .write⟩, entry 0x9B (by decide), onWord (fun w => exec (.tasAbsY w) s) rfl⟩
  | shyAbsX addr => exact ⟨⟨.shy, .absoluteX, 5, false, true, .write⟩, entry 0x9C (by decide), onWord (fun w => exec (.shyAbsX w) s) rfl⟩
  | staAbsX addr => exact ⟨⟨.sta, .absoluteX, 5, false, false, .write⟩, entry 0x9D (by decide), onWord (fun w => exec (.staAbsX w) s) rfl⟩
  | shxAbsY addr => exact ⟨⟨.shx, .absoluteY, 5, false, true, .write⟩, entry 0x9E (by decide), onWord (fun w => exec (.shxAbsY w) s) rfl⟩
  | shaAbsY addr => exact ⟨⟨.sha, .absoluteY, 5, false, true, .write⟩, entry 0x9F (by decide), onWord (fun w => exec (.shaAbsY w) s) rfl⟩
  | ldyImm m => exact ⟨⟨.ldy, .immediate, 2, false, false, .read⟩, entry 0xA0 (by decide), rfl⟩
  | ldaIndX zp => exact ⟨⟨.lda, .indirectX, 6, false, false, .read⟩, entry 0xA1 (by decide), rfl⟩
  | ldxImm m => exact ⟨⟨.ldx, .immediate, 2, false, false, .read⟩, entry 0xA2 (by decide), rfl⟩
  | laxIndX zp => exact ⟨⟨.lax, .indirectX, 6, false, true, .read⟩, entry 0xA3 (by decide), rfl⟩
  | ldyZp zp => exact ⟨⟨.ldy, .zeropage, 3, false, false, .read⟩, entry 0xA4 (by decide), rfl⟩
  | ldaZp zp => exact ⟨⟨.lda, .zeropage, 3, false, false, .read⟩, entry 0xA5 (by decide), rfl⟩
  | ldxZp zp => exact ⟨⟨.ldx, .zeropage, 3, false, false, .read⟩, entry 0xA6 (by decide), rfl⟩
  | laxZp zp => exact ⟨⟨.lax, .zeropage, 3, false, true, .read⟩, entry 0xA7 (by decide), rfl⟩
  | tay => exact ⟨⟨.tay, .implied, 2, false, false, .control⟩, entry 0xA8 (by decide), rfl⟩
  | ldaImm m => exact ⟨⟨.lda, .immediate, 2, false, false, .read⟩, entry 0xA9 (by decide), rfl⟩
  | tax => exact ⟨⟨.tax, .implied, 2, false, false, .control⟩, entry 0xAA (by decide), rfl⟩
  | lxaImm m => exact ⟨⟨.lxa, .immediate, 2, false, true, .read⟩, entry 0xAB (by decide), rfl⟩
  | ldyAbs addr => exact ⟨⟨.ldy, .absolute, 4, false, false, .read⟩, entry 0xAC (by decide), onWord (fun w => exec (.ldyAbs w) s) rfl⟩
  | ldaAbs addr => exact ⟨⟨.lda, .absolute, 4, false, false, .read⟩, entry 0xAD (by decide), onWord (fun w => exec (.ldaAbs w) s) rfl⟩
  | ldxAbs addr => exact ⟨⟨.ldx, .absolute, 4, false, false, .read⟩, entry 0xAE (by decide), onWord (fun w => exec (.ldxAbs w) s) rfl⟩
  | laxAbs addr => exact ⟨⟨.lax, .absolute, 4, false, true, .read⟩, entry 0xAF (by decide), onWord (fun w => exec (.laxAbs w) s) rfl⟩
  | bcs off => exact ⟨⟨.bcs, .relative, 2, false, false, .control⟩, entry 0xB0 (by decide), rfl⟩
  | ldaIndY zp => exact ⟨⟨.lda, .indirectY, 5, true, false, .read⟩, entry 0xB1 (by decide), rfl⟩
  | laxIndY zp => exact ⟨⟨.lax, .indirectY, 5, true, true, .read⟩, entry 0xB3 (by decide), rfl⟩
  | ldyZpX zp => exact ⟨⟨.ldy, .zeropageX, 4, false, false, .read⟩, entry 0xB4 (by decide), rfl⟩
  | ldaZpX zp => exact ⟨⟨.lda, .zeropageX, 4, false, false, .read⟩, entry 0xB5 (by decide), rfl⟩
  | ldxZpY zp => exact ⟨⟨.ldx, .zeropageY, 4, false, false, .read⟩, entry 0xB6 (by decide), rfl⟩
  | laxZpY zp => exact ⟨⟨.lax, .zeropageY, 4, false, true, .read⟩, entry 0xB7 (by decide), rfl⟩
  | clv => exact ⟨⟨.clv, .implied, 2, false, false, .control⟩, entry 0xB8 (by decide), rfl⟩
  | ldaAbsY addr => exact ⟨⟨.lda, .absoluteY, 4, true, false, .read⟩, entry 0xB9 (by decide), onWord (fun w => exec (.ldaAbsY w) s) rfl⟩
  | tsx => exact ⟨⟨.tsx, .implied, 2, false, false, .control⟩, entry 0xBA (by decide), rfl⟩
  | lasAbsY addr => exact ⟨⟨.las, .absoluteY, 4, true, true, .read⟩, entry 0xBB (by decide), onWord (fun w => exec (.lasAbsY w) s) rfl⟩
  | ldyAbsX addr => exact ⟨⟨.ldy, .absoluteX, 4, true, false, .read⟩, entry 0xBC (by decide), onWord (fun w => exec (.ldyAbsX w) s) rfl⟩
  | ldaAbsX addr => exact ⟨⟨.lda, .absoluteX, 4, true, false, .read⟩, entry 0xBD (by decide), onWord (fun w => exec (.ldaAbsX w) s) rfl⟩
  | ldxAbsY addr => exact ⟨⟨.ldx, .absoluteY, 4, true, false, .read⟩, entry 0xBE (by decide), onWord (fun w => exec (.ldxAbsY w) s) rfl⟩
  | laxAbsY addr => exact ⟨⟨.lax, .absoluteY, 4, true, true, .read⟩, entry 0xBF (by decide), onWord (fun w => exec (.laxAbsY w) s) rfl⟩
  | cpyImm m => exact ⟨⟨.cpy, .immediate, 2, false, false, .read⟩, entry 0xC0 (by decide), rfl⟩
  | cmpIndX zp => exact ⟨⟨.cmp, .indirectX, 6, false, false, .read⟩, entry 0xC1 (by decide), rfl⟩
  | dcpIndX zp => exact ⟨⟨.dcp, .indirectX, 8, false, true, .rmw⟩, entry 0xC3 (by decide), rfl⟩
  | cpyZp zp => exact ⟨⟨.cpy, .zeropage, 3, false, false, .read⟩, entry 0xC4 (by decide), rfl⟩
  | cmpZp zp => exact ⟨⟨.cmp, .zeropage, 3, false, false, .read⟩, entry 0xC5 (by decide), rfl⟩
  | decZp zp => exact ⟨⟨.dec, .zeropage, 5, false, false, .rmw⟩, entry 0xC6 (by decide), rfl⟩
  | dcpZp zp => exact ⟨⟨.dcp, .zeropage, 5, false, true, .rmw⟩, entry 0xC7 (by decide), rfl⟩
  | iny => exact ⟨⟨.iny, .implied, 2, false, false, .control⟩, entry 0xC8 (by decide), rfl⟩
  | cmpImm m => exact ⟨⟨.cmp, .immediate, 2, false, false, .read⟩, entry 0xC9 (by decide), rfl⟩
  | dex => exact ⟨⟨.dex, .implied, 2, false, false, .control⟩, entry 0xCA (by decide), rfl⟩
  | sbxImm m => exact ⟨⟨.sbx, .immediate, 2, false, true, .read⟩, entry 0xCB (by decide), rfl⟩
  | cpyAbs addr => exact ⟨⟨.cpy, .absolute, 4, false, false, .read⟩, entry 0xCC (by decide), onWord (fun w => exec (.cpyAbs w) s) rfl⟩
  | cmpAbs addr => exact ⟨⟨.cmp, .absolute, 4, false, false, .read⟩, entry 0xCD (by decide), onWord (fun w => exec (.cmpAbs w) s) rfl⟩
  | decAbs addr => exact ⟨⟨.dec, .absolute, 6, false, false, .rmw⟩, entry 0xCE (by decide), onWord (fun w => exec (.decAbs w) s) rfl⟩
  | dcpAbs addr => exact ⟨⟨.dcp, .absolute, 6, false, true, .rmw⟩, entry 0xCF (by decide), onWord (fun w => exec (.dcpAbs w) s) rfl⟩
  | bne off => exact ⟨⟨.bne, .relative, 2, false, false, .control⟩, entry 0xD0 (by decide), rfl⟩
  | cmpIndY zp => exact ⟨⟨.cmp, .indirectY, 5, true, false, .read⟩, entry 0xD1 (by decide), rfl⟩
  | dcpIndY zp => exact ⟨⟨.dcp, .indirectY, 8, false, true, .rmw⟩, entry 0xD3 (by decide), rfl⟩
  | cmpZpX zp => exact ⟨⟨.cmp, .zeropageX, 4, false, false, .read⟩, entry 0xD5 (by decide), rfl⟩
  | decZpX zp => exact ⟨⟨.dec, .zeropageX, 6, false, false, .rmw⟩, entry 0xD6 (by decide), rfl⟩
  | dcpZpX zp => exact ⟨⟨.dcp, .zeropageX, 6, false, true, .rmw⟩, entry 0xD7 (by decide), rfl⟩
  | cld => exact ⟨⟨.cld, .implied, 2, false, false, .control⟩, entry 0xD8 (by decide), rfl⟩
  | cmpAbsY addr => exact ⟨⟨.cmp, .absoluteY, 4, true, false, .read⟩, entry 0xD9 (by decide), onWord (fun w => exec (.cmpAbsY w) s) rfl⟩
  | dcpAbsY addr => exact ⟨⟨.dcp, .absoluteY, 7, false, true, .rmw⟩, entry 0xDB (by decide), onWord (fun w => exec (.dcpAbsY w) s) rfl⟩
  | cmpAbsX addr => exact ⟨⟨.cmp, .absoluteX, 4, true, false, .read⟩, entry 0xDD (by decide), onWord (fun w => exec (.cmpAbsX w) s) rfl⟩
  | decAbsX addr => exact ⟨⟨.dec, .absoluteX, 7, false, false, .rmw⟩, entry 0xDE (by decide), onWord (fun w => exec (.decAbsX w) s) rfl⟩
  | dcpAbsX addr => exact ⟨⟨.dcp, .absoluteX, 7, false, true, .rmw⟩, entry 0xDF (by decide), onWord (fun w => exec (.dcpAbsX w) s) rfl⟩
  | cpxImm m => exact ⟨⟨.cpx, .immediate, 2, false, false, .read⟩, entry 0xE0 (by decide), rfl⟩
  | sbcIndX zp => exact ⟨⟨.sbc, .indirectX, 6, false, false, .read⟩, entry 0xE1 (by decide), rfl⟩
  | iscIndX zp => exact ⟨⟨.isc, .indirectX, 8, false, true, .rmw⟩, entry 0xE3 (by decide), rfl⟩
  | cpxZp zp => exact ⟨⟨.cpx, .zeropage, 3, false, false, .read⟩, entry 0xE4 (by decide), rfl⟩
  | sbcZp zp => exact ⟨⟨.sbc, .zeropage, 3, false, false, .read⟩, entry 0xE5 (by decide), rfl⟩
  | incZp zp => exact ⟨⟨.inc, .zeropage, 5, false, false, .rmw⟩, entry 0xE6 (by decide), rfl⟩
  | iscZp zp => exact ⟨⟨.isc, .zeropage, 5, false, true, .rmw⟩, entry 0xE7 (by decide), rfl⟩
  | inx => exact ⟨⟨.inx, .implied, 2, false, false, .control⟩, entry 0xE8 (by decide), rfl⟩
  | sbcImm m => exact ⟨⟨.sbc, .immediate, 2, false, false, .read⟩, entry 0xE9 (by decide), rfl⟩
  | nop => exact ⟨⟨.nop, .implied, 2, false, false, .control⟩, entry 0xEA (by decide), rfl⟩
  | usbcImm m => exact ⟨⟨.sbc, .immediate, 2, false, true, .read⟩, entry 0xEB (by decide), rfl⟩
  | cpxAbs addr => exact ⟨⟨.cpx, .absolute, 4, false, false, .read⟩, entry 0xEC (by decide), onWord (fun w => exec (.cpxAbs w) s) rfl⟩
  | sbcAbs addr => exact ⟨⟨.sbc, .absolute, 4, false, false, .read⟩, entry 0xED (by decide), onWord (fun w => exec (.sbcAbs w) s) rfl⟩
  | incAbs addr => exact ⟨⟨.inc, .absolute, 6, false, false, .rmw⟩, entry 0xEE (by decide), onWord (fun w => exec (.incAbs w) s) rfl⟩
  | iscAbs addr => exact ⟨⟨.isc, .absolute, 6, false, true, .rmw⟩, entry 0xEF (by decide), onWord (fun w => exec (.iscAbs w) s) rfl⟩
  | beq off => exact ⟨⟨.beq, .relative, 2, false, false, .control⟩, entry 0xF0 (by decide), rfl⟩
  | sbcIndY zp => exact ⟨⟨.sbc, .indirectY, 5, true, false, .read⟩, entry 0xF1 (by decide), rfl⟩
  | iscIndY zp => exact ⟨⟨.isc, .indirectY, 8, false, true, .rmw⟩, entry 0xF3 (by decide), rfl⟩
  | sbcZpX zp => exact ⟨⟨.sbc, .zeropageX, 4, false, false, .read⟩, entry 0xF5 (by decide), rfl⟩
  | incZpX zp => exact ⟨⟨.inc, .zeropageX, 6, false, false, .rmw⟩, entry 0xF6 (by decide), rfl⟩
  | iscZpX zp => exact ⟨⟨.isc, .zeropageX, 6, false, true, .rmw⟩, entry 0xF7 (by decide), rfl⟩
  | sed => exact ⟨⟨.sed, .implied, 2, false, false, .control⟩, entry 0xF8 (by decide), rfl⟩
  | sbcAbsY addr => exact ⟨⟨.sbc, .absoluteY, 4, true, false, .read⟩, entry 0xF9 (by decide), onWord (fun w => exec (.sbcAbsY w) s) rfl⟩
  | iscAbsY addr => exact ⟨⟨.isc, .absoluteY, 7, false, true, .rmw⟩, entry 0xFB (by decide), onWord (fun w => exec (.iscAbsY w) s) rfl⟩
  | sbcAbsX addr => exact ⟨⟨.sbc, .absoluteX, 4, true, false, .read⟩, entry 0xFD (by decide), onWord (fun w => exec (.sbcAbsX w) s) rfl⟩
  | incAbsX addr => exact ⟨⟨.inc, .absoluteX, 7, false, false, .rmw⟩, entry 0xFE (by decide), onWord (fun w => exec (.incAbsX w) s) rfl⟩
  | iscAbsX addr => exact ⟨⟨.isc, .absoluteX, 7, false, true, .rmw⟩, entry 0xFF (by decide), onWord (fun w => exec (.iscAbsX w) s) rfl⟩

end Sys2Proof.Machine
end

