-- ==== Sys2Proof/Laws/Classes.lean ====
section
/-! SUPPORT. What an instruction of each access class leaves, in the resolver's terms: for every well-formed instruction of the
class, `exec` answers a next state whose core is the class's effect on the core before, moved past the instruction with its
cycles counted, and whose memory is stated. -/

namespace Sys2Proof.Machine

/-- A core with PC and the two counters set. -/
def Cpu.moved (pc : Word) (cycles instructions : Nat) (c : Cpu) : Cpu :=
  { c with pc := pc, cycles := cycles, instructions := instructions }

section
variable (pc : Word) (n k : Nat) (c : Cpu)
@[simp] theorem moved_a : (c.moved pc n k).a = c.a := rfl
@[simp] theorem moved_x : (c.moved pc n k).x = c.x := rfl
@[simp] theorem moved_y : (c.moved pc n k).y = c.y := rfl
@[simp] theorem moved_s : (c.moved pc n k).s = c.s := rfl
@[simp] theorem moved_p : (c.moved pc n k).p = c.p := rfl
@[simp] theorem moved_flag (f : Flag) : (c.moved pc n k).flag f = c.flag f := rfl
end

/-! ## Effects do not look at PC or the counters -/

theorem readEffect_moved (P : Params) (mn : Mnemonic) (m : Byte) (pc : Word) (n k : Nat) (c : Cpu) :
    readEffect P mn m (c.moved pc n k) = (readEffect P mn m c).moved pc n k := by
  cases mn <;> first | rfl | skip
  case arr => by_cases h : c.flag .d = true <;> simp only [readEffect, Cpu.opArr, moved_a, moved_flag, h, if_true] <;> rfl

theorem writeEffect_moved (mn : Mnemonic) (pc : Word) (n k : Nat) (c : Cpu) :
    writeEffect mn (c.moved pc n k) = writeEffect mn c := by cases mn <;> rfl

theorem modifyEffect_moved (mn : Mnemonic) (m : Byte) (pc : Word) (n k : Nat) (c : Cpu) :
    modifyEffect mn m (c.moved pc n k) = ((modifyEffect mn m c).1, (modifyEffect mn m c).2.moved pc n k) := by
  cases mn <;> rfl

theorem impliedEffect_moved (mn : Mnemonic) (pc : Word) (n k : Nat) (c : Cpu) :
    impliedEffect mn (c.moved pc n k) = (impliedEffect mn c).moved pc n k := by cases mn <;> rfl

/-! ## What well-formedness says of the entry -/

theorem opcodeOk_of_wf {i : Instr} (wf : i.WellFormed) : i.opcodeOk = true := by
  simp only [Instr.WellFormed, Instr.wellFormedIn, Bool.and_eq_true] at wf
  exact wf.1

/-- An instruction's entry is well-formed and gives its length, mode, class and mnemonic. -/
structure HasRow (i : Instr) (r : Row) : Prop where
  entry : i.row? = some r
  wf : r.wellFormed = true
  length : i.length = r.mode.operandBytes + 1
  mode : i.mode = r.mode
  cls : i.cls = r.cls
  mnemonic : mnemonicOf i = r.mnemonic
  names : ∀ m, i.hasMnemonic m = (r.mnemonic == m)

theorem hasRow_of_row {i : Instr} (wf : i.WellFormed) {r : Row} (h : i.row? = some r) : HasRow i r := by
  have e : opcodeTable i.opcode = some r := h
  simp only [Instr.WellFormed, Instr.wellFormedIn, e, Bool.and_eq_true, beq_iff_eq] at wf
  exact ⟨h, wf.2.1, wf.2.2.symm, by simp [Instr.mode, h], by simp [Instr.cls, h], by simp [mnemonicOf, h],
    by simp [Instr.hasMnemonic, h]⟩

/-- A well-formed instruction runs as its entry says. -/
theorem exec_runs {i : Instr} (wf : i.WellFormed) (s : State) :
    ∃ r, HasRow i r ∧ exec i s = .next (runRow r i.b1 i.b2 s) := by
  obtain ⟨r, h, e⟩ := exec_eq_runRow i (opcodeOk_of_wf wf) s
  exact ⟨r, hasRow_of_row wf h, e⟩

theorem HasRow.operand {i : Instr} {r : Row} (h : HasRow i r) (s : State) : operandOf i s = resolve r.mode i.b1 i.b2 s := by
  simp [operandOf, h.mode]

theorem HasRow.cycles {i : Instr} {r : Row} (h : HasRow i r) (s : State) :
    cycleCount i s =
      r.cycles + (if r.boundary && (operandOf i s).crossed then 1 else 0) + (if r.mode = .relative then branchExtra i s else 0) := by
  simp [cycleCount, h.entry]

/-! ## The classes -/

theorem retire_moved (pc : Word) (n k : Nat) (c : Cpu) : (c.moved pc n k).retire = c.moved pc n (k + 1) := rfl

/-- Read class at the end of a mode's address cycles. -/
theorem readAt_reaches {l : Located} {mode : Mode} {b1 b2 : Byte} {s : State} (h : Reaches l mode b1 b2 s) (mn : Mnemonic) :
    (readAt (readEffect {} mn) l).cpu =
        (readEffect {} mn ((resolve mode b1 b2 s).value s) s.cpu).moved
          (s.cpu.pc + BitVec.ofNat 16 (mode.operandBytes + 1))
          (s.cpu.cycles + (mode.addressCycles + 1 + if (resolve mode b1 b2 s).crossed then 1 else 0))
          (s.cpu.instructions + 1) ∧
      (readAt (readEffect {} mn) l).bus.mem = s.bus.mem := by
  refine ⟨?_, by rw [readAt_mem, h.mem]⟩
  have ea : (if l.crossed then l.ea else l.ea0) = l.ea := by
    cases c : l.crossed
    · simp [h.uncorrected c]
    · simp
  have cy : ∀ n : Nat, s.cpu.cycles + n + (if l.crossed then 2 else 1) = s.cpu.cycles + (n + 1 + if l.crossed then 1 else 0) := by
    intro n; split <;> omega
  rw [readAt_cpu, ea, h.resolved, h.mem, h.cpu]
  simp only [Resolved.value, Resolved.crossed, cy]
  exact congrArg Cpu.retire (readEffect_moved {} mn _ _ _ _ s.cpu)

/-- Read class (R81, R201 to R208). -/
theorem runRow_read {i : Instr} {r : Row} (h : HasRow i r) (hc : r.cls = .read) (s : State) :
    (runRow r i.b1 i.b2 s).cpu = past i s (readEffect {} r.mnemonic (operandByte i s) s.cpu) ∧
      (runRow r i.b1 i.b2 s).bus.mem = s.bus.mem := by
  unfold operandByte
  have w := h.wf
  have cy := h.cycles s
  simp only [past, h.length, cy, h.operand]
  obtain ⟨mn, mode, cyc, b, ill, cls⟩ := r
  simp only at hc
  subst hc
  simp only [Row.wellFormed, Row.boundaryOk, Row.modeOk, Row.cyclesOk, AccessClass.baseCycles, Bool.and_eq_true, beq_iff_eq] at w
  by_cases him : mode = .immediate
  · subst him
    obtain rfl := w.2
    have e1 : Mode.immediate.addressCycles + 1 = 2 := rfl
    simp only [runRow, if_true, immediate, resolve, Resolved.value, Resolved.crossed, retire_cpu, mapCpu_cpu, fetched2_cpu,
      retire_bus, mapCpu_bus, fetched_mem, and_true, Bool.and_false, Bool.false_eq_true, if_false, reduceCtorEq, Nat.add_zero, e1]
    exact congrArg Cpu.retire (readEffect_moved {} mn _ _ _ _ s.cpu)
  · have ha : hasAddress mode = true := by
      have := w.1.2
      cases mode <;> simp_all [hasAddress]
    have hr : mode ≠ .relative := by rintro rfl; cases ha
    have reach := locate_reaches s ha i.b1 i.b2
    have rr := readAt_reaches reach mn
    have hb : (b && (resolve mode i.b1 i.b2 s).crossed) = (resolve mode i.b1 i.b2 s).crossed := by
      have d := reach.direct
      rw [reach.resolved, Resolved.crossed]
      rw [reach.indexed] at d
      rw [w.1.1]
      cases hcr : (locate mode i.b1 i.b2 s).crossed
      · simp
      · simp [d hcr]
    simp only [runRow, him, if_false, hr, hb, w.2, Nat.add_zero]
    exact rr

/-! ## Write and read-modify-write -/

/-- The cycles a write or read-modify-write spends do not depend on a page cross (R74, R93). -/
theorem HasRow.fixedCycles {i : Instr} {r : Row} (h : HasRow i r) (hc : r.cls = .write ∨ r.cls = .rmw) (s : State) :
    hasAddress r.mode = true ∧ cycleCount i s = r.cls.baseCycles r.mode := by
  have w := h.wf
  have cy := h.cycles s
  obtain ⟨mn, mode, cyc, b, ill, cls⟩ := r
  rcases hc with hc | hc <;> simp only at hc <;> subst hc <;>
    simp only [Row.wellFormed, Row.boundaryOk, Row.modeOk, Row.cyclesOk, Bool.and_eq_true, beq_iff_eq] at w <;>
    cases mode <;> simp_all [hasAddress]

/-- Write class: an ordinary store (R81, R102, R202 to R208). -/
theorem runRow_write {i : Instr} {r : Row} (h : HasRow i r) (hc : r.cls = .write) (hu : unstableEffect r.mnemonic = none) (s : State) :
    ∃ ea, (operandOf i s).ea? = some ea ∧ (runRow r i.b1 i.b2 s).cpu = past i s s.cpu ∧
      (runRow r i.b1 i.b2 s).bus.mem = memWrite s.bus.mem ea (writeEffect r.mnemonic s.cpu) ∧
      ∃ l, (runRow r i.b1 i.b2 s).bus.log = .write ea (writeEffect r.mnemonic s.cpu) :: l := by
  obtain ⟨ha, cy⟩ := h.fixedCycles (.inl hc) s
  have reach := locate_reaches s ha i.b1 i.b2
  refine ⟨(locate r.mode i.b1 i.b2 s).ea, ?_, ?_, ?_, ?_⟩
  · rw [h.operand, reach.resolved]; rfl
  · simp only [runRow, hc, hu, writeAt_cpu, reach.cpu, reach.indexed, past, cy, h.length, AccessClass.baseCycles, Nat.add_assoc]
    split <;> rfl
  · simp only [runRow, hc, hu, writeAt_mem, reach.mem, uncorrectedRead_cpu, reach.cpu]
    exact congrArg (memWrite s.bus.mem _) (writeEffect_moved r.mnemonic _ _ _ s.cpu)
  · simp only [runRow, hc, hu, writeAt_log, uncorrectedRead_cpu, reach.cpu]
    exact ⟨_, congrArg (fun v => BusEvent.write _ v :: _) (writeEffect_moved r.mnemonic _ _ _ s.cpu)⟩

theorem unstableEffect_moved {mn : Mnemonic} {regs : Cpu → Byte × Cpu} (h : unstableEffect mn = some regs) (pc : Word) (n k : Nat)
    (c : Cpu) : regs (c.moved pc n k) = ((regs c).1, (regs c).2.moved pc n k) := by
  cases mn <;> simp only [unstableEffect, reduceCtorEq, Option.some.injEq] at h <;> subst h <;> rfl

/-- Write class: SHA, SHX, SHY, TAS (R185). -/
theorem runRow_unstable {i : Instr} {r : Row} (h : HasRow i r) (hc : r.cls = .write) {regs : Cpu → Byte × Cpu}
    (hu : unstableEffect r.mnemonic = some regs) (s : State) :
    ∃ ea0 ea crossed, operandOf i s = .addr ea0 ea crossed ∧ (runRow r i.b1 i.b2 s).cpu = past i s (regs s.cpu).2 ∧
      (runRow r i.b1 i.b2 s).bus.mem =
        memWrite s.bus.mem (shAddr (shValue (regs s.cpu).1 ea0) ea crossed) (shValue (regs s.cpu).1 ea0) ∧
      ∃ l, (runRow r i.b1 i.b2 s).bus.log =
        .write (shAddr (shValue (regs s.cpu).1 ea0) ea crossed) (shValue (regs s.cpu).1 ea0) :: l := by
  obtain ⟨ha, cy⟩ := h.fixedCycles (.inl hc) s
  have reach := locate_reaches s ha i.b1 i.b2
  refine ⟨_, _, _, by rw [h.operand, reach.resolved], ?_, ?_, ?_⟩
  · simp only [runRow, hc, hu, unstableWriteAt, retire_cpu, busWrite_cpu, uncorrectedRead_cpu, reach.cpu, reach.indexed, past, cy,
      h.length, AccessClass.baseCycles]
    have := unstableEffect_moved hu (s.cpu.pc + BitVec.ofNat 16 (r.mode.operandBytes + 1))
      (s.cpu.cycles + r.mode.addressCycles + if r.mode.indexesBase then 1 else 0) s.cpu.instructions s.cpu
    simp only [Cpu.moved] at this ⊢
    rw [this]
    simp only [Cpu.tick, Cpu.retire]
    split <;> rfl
  · simp only [runRow, hc, hu, unstableWriteAt, retire_bus, busWrite_mem, uncorrectedRead_cpu, uncorrectedRead_mem, reach.cpu,
      reach.mem, reach.indexed]
    have := unstableEffect_moved hu (s.cpu.pc + BitVec.ofNat 16 (r.mode.operandBytes + 1))
      (s.cpu.cycles + r.mode.addressCycles + if r.mode.indexesBase then 1 else 0) s.cpu.instructions s.cpu
    simp only [Cpu.moved] at this ⊢
    rw [this]
  · simp only [runRow, hc, hu, unstableWriteAt_log, uncorrectedRead_cpu, reach.cpu, reach.indexed]
    have := unstableEffect_moved hu (s.cpu.pc + BitVec.ofNat 16 (r.mode.operandBytes + 1))
      (s.cpu.cycles + r.mode.addressCycles + if r.mode.indexesBase then 1 else 0) s.cpu.instructions s.cpu
    simp only [Cpu.moved] at this ⊢
    rw [this]
    exact ⟨_, rfl⟩

/-- Read-modify-write class (R209). -/
theorem runRow_rmw {i : Instr} {r : Row} (h : HasRow i r) (hc : r.cls = .rmw) (s : State) :
    ∃ ea, (operandOf i s).ea? = some ea ∧
      (runRow r i.b1 i.b2 s).cpu = past i s (modifyEffect r.mnemonic (memRead s.bus.mem ea) s.cpu).2 ∧
      (runRow r i.b1 i.b2 s).bus.mem = memWrite (memWrite s.bus.mem ea (memRead s.bus.mem ea)) ea
        (modifyEffect r.mnemonic (memRead s.bus.mem ea) s.cpu).1 ∧
      ∃ l, (runRow r i.b1 i.b2 s).bus.log = .write ea (modifyEffect r.mnemonic (memRead s.bus.mem ea) s.cpu).1 ::
        .write ea (memRead s.bus.mem ea) :: .read ea (memRead s.bus.mem ea) :: l := by
  obtain ⟨ha, cy⟩ := h.fixedCycles (.inr hc) s
  have reach := locate_reaches s ha i.b1 i.b2
  refine ⟨(locate r.mode i.b1 i.b2 s).ea, by rw [h.operand, reach.resolved]; rfl, ?_⟩
  have := modifyEffect_moved r.mnemonic (memRead s.bus.mem (locate r.mode i.b1 i.b2 s).ea)
    (s.cpu.pc + BitVec.ofNat 16 (r.mode.operandBytes + 1))
    (s.cpu.cycles + r.mode.addressCycles + if r.mode.indexesBase then 3 else 2) s.cpu.instructions s.cpu
  simp only [Cpu.moved] at this
  simp only [runRow, hc, modifyAt_cpu, modifyAt_mem, modifyAt_log, reach.cpu, reach.mem, reach.indexed, past, cy, h.length,
    AccessClass.baseCycles, this]
  refine ⟨?_, trivial, _, rfl⟩
  simp only [Cpu.tick, Cpu.retire]
  split <;> rfl

/-! ## By mnemonic -/

/-- The access classes a mnemonic's entries have. -/
def classOf : Mnemonic → List AccessClass
  | .lda | .ldx | .ldy | .adc | .sbc | .cmp | .cpx | .cpy | .and | .ora | .eor | .bit | .lax | .las | .anc | .alr | .arr | .sbx
  | .ane | .lxa => [.read]
  | .nop => [.control, .read]
  | .sta | .stx | .sty | .sax | .sha | .shx | .shy | .tas => [.write]
  | .inc | .dec | .slo | .rla | .sre | .rra | .dcp | .isc => [.rmw]
  | .asl | .lsr | .rol | .ror => [.control, .rmw]
  | .jam => [.halt]
  | _ => [.control]

set_option maxRecDepth 20000 in
theorem table_class :
    ∀ op : Byte, ((opcodeTable op).all fun r => (classOf r.mnemonic).contains r.cls &&
      (r.cls != .rmw || r.mode != .accumulator) && (r.mode != .accumulator || [.asl, .lsr, .rol, .ror].contains r.mnemonic)) = true := by
  decide

theorem HasRow.class_mem {i : Instr} {r : Row} (h : HasRow i r) : r.cls ∈ classOf r.mnemonic := by
  have t := table_class i.opcode
  have e : opcodeTable i.opcode = some r := h.entry
  simp only [e, Option.all_some, Bool.and_eq_true, List.contains_iff_mem] at t
  exact t.1.1

theorem HasRow.of_names {i : Instr} {r : Row} (h : HasRow i r) {m : Mnemonic} (hm : i.hasMnemonic m = true) : r.mnemonic = m := by
  rw [h.names] at hm; simpa using hm

/-- An instruction whose mnemonic has one access class runs as an entry of that class. -/
theorem run_class {i : Instr} (wf : i.WellFormed) {m : Mnemonic} (hm : i.hasMnemonic m = true) {c : AccessClass}
    (hc : classOf m = [c]) (s : State) : ∃ r, HasRow i r ∧ r.mnemonic = m ∧ r.cls = c ∧ exec i s = .next (runRow r i.b1 i.b2 s) := by
  obtain ⟨r, h, e⟩ := exec_runs wf s
  have n := h.of_names hm
  have k := h.class_mem
  rw [n, hc] at k
  exact ⟨r, h, n, by simpa using k, e⟩

/-- Read class by mnemonic. -/
theorem run_read {i : Instr} (wf : i.WellFormed) {m : Mnemonic} (hm : i.hasMnemonic m = true) (hc : classOf m = [.read])
    (s : State) : Completes i s (past i s (readEffect {} m (operandByte i s) s.cpu)) := by
  obtain ⟨r, h, rfl, c, e⟩ := run_class wf hm hc s
  obtain ⟨hcpu, hmem⟩ := runRow_read h c s
  exact ⟨_, e, hcpu, fun b => by rw [hmem]⟩

/-- Write class by mnemonic, in canonical memory. -/
theorem run_write {i : Instr} (wf : i.WellFormed) {m : Mnemonic} (hm : i.hasMnemonic m = true) (hc : classOf m = [.write])
    (hu : unstableEffect m = none) {s : State} (w : Memory.wf s.bus.mem = true) :
    StoresOperand i s (writeEffect m s.cpu) := by
  obtain ⟨r, h, rfl, c, e⟩ := run_class wf hm hc s
  obtain ⟨ea, hea, hcpu, hmem, hlog⟩ := runRow_write h c hu s
  exact ⟨ea, hea, _, e, hcpu, hlog, by rw [hmem, memRead_memWrite_same w],
    fun b hb => by rw [hmem, memRead_memWrite_ne w (Ne.symm hb)]⟩

/-- Read-modify-write class by mnemonic, in canonical memory. -/
theorem run_rmw {i : Instr} {r : Row} (h : HasRow i r) (hc : r.cls = .rmw) {s : State} (w : Memory.wf s.bus.mem = true)
    (e : exec i s = .next (runRow r i.b1 i.b2 s)) :
    ModifiesOperand i s (fun m => (modifyEffect r.mnemonic m s.cpu).1) (fun m => (modifyEffect r.mnemonic m s.cpu).2) := by
  obtain ⟨ea, hea, hcpu, hmem, hlog⟩ := runRow_rmw h hc s
  have w' := memWrite_wf w ea (memRead s.bus.mem ea)
  exact ⟨ea, hea, _, e, hcpu, hlog, by rw [hmem, memRead_memWrite_same w'],
    fun b hb => by rw [hmem, memRead_memWrite_ne w' (Ne.symm hb), memRead_memWrite_ne w (Ne.symm hb)]⟩

end Sys2Proof.Machine
end

