-- ==== Sys2Proof/Laws/Control.lean ====
section
/-! SUPPORT. What the two-cycle implied instructions, branches, jumps, stack, subroutine and break instructions and JAM leave. -/

namespace Sys2Proof.Machine

variable (s : State)

/-! ## Two-cycle implied and accumulator instructions (R200) -/

theorem implied_cpu (f : Cpu → Cpu) :
    (implied f s).cpu = (f { s.cpu with pc := s.cpu.pc + 1, cycles := s.cpu.cycles + 2 }).retire := by
  simp [implied, Cpu.tick, Cpu.incPc]

theorem implied_mem (f : Cpu → Cpu) : (implied f s).bus.mem = s.bus.mem := by simp [implied]

theorem implied_log (f : Cpu → Cpu) : Accessed s (implied f s) (fetch2 s) := by
  simp [Accessed, fetch2, rd, implied, Cpu.incPc]

theorem onAccumulator_moved (mn : Mnemonic) (pc : Word) (n k : Nat) (c : Cpu) :
    onAccumulator (modifyEffect mn) (c.moved pc n k) = (onAccumulator (modifyEffect mn) c).moved pc n k := by
  simp only [onAccumulator, moved_a, modifyEffect_moved]; rfl

/-- The control mnemonics that take more than the two cycles of R200. -/
def longControl : Mnemonic → Bool
  | .jmp | .jsr | .rts | .rti | .brk | .pha | .php | .pla | .plp => true
  | _ => false

/-- Implied and accumulator instructions of two cycles (R200). -/
theorem runRow_implied {i : Instr} {r : Row} (h : HasRow i r) (hc : r.cls = .control) (hl : longControl r.mnemonic = false)
    (hm : r.mode = .implied ∨ r.mode = .accumulator) :
    (runRow r i.b1 i.b2 s).cpu =
        past i s ((if r.mode = .accumulator then onAccumulator (modifyEffect r.mnemonic) else impliedEffect r.mnemonic) s.cpu) ∧
      (runRow r i.b1 i.b2 s).bus.mem = s.bus.mem ∧
      Accessed s (runRow r i.b1 i.b2 s) (fetch2 s) := by
  have w := h.wf
  have cy := h.cycles s
  have two : cycleCount i s = 2 := by
    rw [cy]
    obtain ⟨mn, mode, cyc, b, ill, cls⟩ := r
    simp only at hc hl hm
    subst hc
    simp only [Row.wellFormed, Row.boundaryOk, Row.cyclesOk, Bool.and_eq_true, beq_iff_eq] at w
    rcases hm with rfl | rfl <;> cases mn <;> simp_all [longControl, Mnemonic.controlCycles]
  have one : i.length = 1 := by rw [h.length]; rcases hm with hm | hm <;> rw [hm] <;> rfl
  have run : ∃ f : Cpu → Cpu, runRow r i.b1 i.b2 s = implied f s ∧
      f = (if r.mode = .accumulator then onAccumulator (modifyEffect r.mnemonic) else impliedEffect r.mnemonic) := by
    obtain ⟨mn, mode, cyc, b, ill, cls⟩ := r
    simp only at hc hl hm
    subst hc
    refine ⟨_, ?_, rfl⟩
    rcases hm with rfl | rfl <;> cases mn <;> first | exact absurd hl (by decide) | rfl
  obtain ⟨f, run, rfl⟩ := run
  refine ⟨?_, by rw [run, implied_mem], by rw [run]; exact implied_log s _⟩
  rw [run, implied_cpu, past, two, one]
  split
  · exact congrArg Cpu.retire (onAccumulator_moved r.mnemonic _ _ _ s.cpu)
  · exact congrArg Cpu.retire (impliedEffect_moved r.mnemonic _ _ _ s.cpu)

/-! ## Branches (R132, R210) -/

theorem branch_cpu (f : Flag) (want : Bool) (off : Byte) :
    (branch f want off s).cpu =
      { s.cpu with
        pc := if s.cpu.flag f == want then branchTarget (s.cpu.pc + 2) off else s.cpu.pc + 2
        cycles := s.cpu.cycles +
          (if s.cpu.flag f == want then (if samePage (branchTarget (s.cpu.pc + 2) off) (s.cpu.pc + 2) then 3 else 4) else 2)
        instructions := s.cpu.instructions + 1 } := by
  have fl : (s.fetched.fetched.cpu.flag f) = s.cpu.flag f := rfl
  have e := fetched2_cpu s
  unfold branch
  simp only [fl]
  split
  · split <;> simp_all [Cpu.tick, Cpu.jump, Cpu.retire]
  · simp_all [Cpu.retire]

theorem branch_mem (f : Flag) (want : Bool) (off : Byte) : (branch f want off s).bus.mem = s.bus.mem := by
  unfold branch
  dsimp only
  split
  · simp only [retire_bus, mapCpu_bus]; split <;> simp
  · simp

theorem branch_log (f : Flag) (want : Bool) (off : Byte) :
    Accessed s (branch f want off s) (fetch2 s ++
      if s.cpu.flag f == want then
        rd s (s.cpu.pc + 2) ::
          (if samePage (branchTarget (s.cpu.pc + 2) off) (s.cpu.pc + 2) then []
          else [rd s (mkWord (hiByte (s.cpu.pc + 2)) (loByte (branchTarget (s.cpu.pc + 2) off)))])
      else []) := by
  have fl : (s.fetched.fetched.cpu.flag f) = s.cpu.flag f := rfl
  have e := fetched2_cpu s
  unfold branch Accessed
  simp only [fl]
  split
  · split <;> simp_all [fetch2, rd, Cpu.incPc]
  · simp_all [fetch2, rd, Cpu.incPc]

/-! ## Jumps (R142, R211) -/

theorem jumpAbsolute_cpu (target : Word) :
    (jumpAbsolute target s).cpu =
      { s.cpu with pc := target, cycles := s.cpu.cycles + 3, instructions := s.cpu.instructions + 1 } := by
  simp only [jumpAbsolute, retire_cpu, mapCpu_cpu, fetched3_cpu]; rfl

theorem jumpAbsolute_mem (target : Word) : (jumpAbsolute target s).bus.mem = s.bus.mem := by simp [jumpAbsolute]

theorem jumpIndirect_cpu (ptr : Word) :
    (jumpIndirect ptr s).cpu =
      { s.cpu with pc := jmpPointer s.bus.mem ptr, cycles := s.cpu.cycles + 5, instructions := s.cpu.instructions + 1 } := by
  simp [jumpIndirect, jmpPointer, Cpu.tick, Cpu.incPc, Cpu.jump, Cpu.retire]

theorem jumpIndirect_mem (ptr : Word) : (jumpIndirect ptr s).bus.mem = s.bus.mem := by simp [jumpIndirect]

/-! ## Pushes and pulls (R145 to R148, R212) -/

theorem pushValue_cpu (value : Cpu → Byte) :
    (pushValue value s).cpu =
      { s.cpu with
        s := s.cpu.s - 1, pc := s.cpu.pc + 1, cycles := s.cpu.cycles + 3, instructions := s.cpu.instructions + 1 } := by
  simp [pushValue, Cpu.tick, Cpu.incPc, Cpu.decS, Cpu.retire]

theorem pushValue_mem (value : Cpu → Byte) :
    (pushValue value s).bus.mem =
      memWrite s.bus.mem (stackAddr s.cpu.s) (value { s.cpu with pc := s.cpu.pc + 1, cycles := s.cpu.cycles + 2 }) := by
  simp [pushValue, Cpu.tick, Cpu.incPc]

theorem pullValue_cpu (f : Byte → Cpu → Cpu) :
    (pullValue f s).cpu =
      (f (memRead s.bus.mem (stackAddr (s.cpu.s + 1)))
        { s.cpu with s := s.cpu.s + 1, pc := s.cpu.pc + 1, cycles := s.cpu.cycles + 4 }).retire := by
  simp [pullValue, Cpu.tick, Cpu.incPc, Cpu.incS]

theorem pullValue_mem (f : Byte → Cpu → Cpu) : (pullValue f s).bus.mem = s.bus.mem := by simp [pullValue]

/-! ## Subroutines (R149, R150, R213, R214) -/

/-- The memory JSR's two pushes leave. -/
def callMem (m : Memory) (sp : Byte) (ret : Word) : Memory :=
  memWrite (memWrite m (stackAddr sp) (hiByte ret)) (stackAddr (sp - 1)) (loByte ret)

theorem callMem_wf {m : Memory} (wf : Memory.wf m = true) (sp : Byte) (ret : Word) : Memory.wf (callMem m sp ret) = true :=
  memWrite_wf (memWrite_wf wf _ _) _ _

theorem jumpToSubroutine_cpu (target : Word) :
    (jumpToSubroutine target s).cpu =
      { s.cpu with
        s := s.cpu.s - 1 - 1
        pc := mkWord (memRead (callMem s.bus.mem s.cpu.s (s.cpu.pc + 2)) (s.cpu.pc + 2)) (loByte target)
        cycles := s.cpu.cycles + 6
        instructions := s.cpu.instructions + 1 } := by
  simp [jumpToSubroutine, callMem, Cpu.tick, Cpu.incPc, Cpu.decS, Cpu.jump, Cpu.retire, BitVec.add_assoc]

theorem jumpToSubroutine_mem (target : Word) :
    (jumpToSubroutine target s).bus.mem = callMem s.bus.mem s.cpu.s (s.cpu.pc + 2) := by
  simp [jumpToSubroutine, callMem, Cpu.tick, Cpu.incPc, Cpu.decS, BitVec.add_assoc]

theorem returnFromSubroutine_cpu :
    (returnFromSubroutine s).cpu =
      { s.cpu with
        s := s.cpu.s + 1 + 1
        pc := mkWord (memRead s.bus.mem (stackAddr (s.cpu.s + 1 + 1))) (memRead s.bus.mem (stackAddr (s.cpu.s + 1))) + 1
        cycles := s.cpu.cycles + 6
        instructions := s.cpu.instructions + 1 } := by
  simp [returnFromSubroutine, Cpu.tick, Cpu.incPc, Cpu.incS, Cpu.jump, Cpu.retire]

theorem returnFromSubroutine_mem : (returnFromSubroutine s).bus.mem = s.bus.mem := by simp [returnFromSubroutine]

/-! ## Return from interrupt and break (R151, R152, R215, R216) -/

theorem returnFromInterrupt_cpu :
    (returnFromInterrupt s).cpu =
      { s.cpu with
        s := s.cpu.s + 1 + 1 + 1
        p := setPValue s.cpu.p (memRead s.bus.mem (stackAddr (s.cpu.s + 1)))
        pc := mkWord (memRead s.bus.mem (stackAddr (s.cpu.s + 1 + 1 + 1))) (memRead s.bus.mem (stackAddr (s.cpu.s + 1 + 1)))
        cycles := s.cpu.cycles + 6
        instructions := s.cpu.instructions + 1 } := by
  simp [returnFromInterrupt, returnFromHandler_cpu, Cpu.tick, Cpu.incPc, Cpu.retire]

theorem returnFromInterrupt_mem : (returnFromInterrupt s).bus.mem = s.bus.mem := by
  simp [returnFromInterrupt, returnFromHandler_mem]

theorem breakInterrupt_cpu :
    (breakInterrupt s).cpu =
      { s.cpu with
        s := s.cpu.s - 1 - 1 - 1
        p := putFlag s.cpu.p .i true
        pc := memRead16 (entryMem s.bus.mem s.cpu.s (s.cpu.pc + 2) s.cpu.statusForBreak) Config.irqVector
        cycles := s.cpu.cycles + 7
        instructions := s.cpu.instructions + 1 } := by
  simp only [breakInterrupt, retire_cpu, enterHandler_cpu, fetched2_cpu, fetched_mem, Cpu.retire, Cpu.statusForBreak]

theorem breakInterrupt_mem :
    (breakInterrupt s).bus.mem = entryMem s.bus.mem s.cpu.s (s.cpu.pc + 2) s.cpu.statusForBreak := by
  simp only [breakInterrupt, retire_bus, enterHandler_mem, fetched2_cpu, fetched_mem, Cpu.statusForBreak]

/-! ## JAM (R191, R218) -/

theorem jam_cpu : s.jam.cpu = { s.cpu with phase := .halted, pc := s.cpu.pc + 1, cycles := s.cpu.cycles + 1 } := rfl

theorem jam_mem : s.jam.bus.mem = s.bus.mem := rfl

theorem jam_log : Accessed s s.jam [rd s s.cpu.pc] := rfl

/-! ## The bus accesses of the jumps and of the stack instructions (R211 to R216) -/

theorem jumpAbsolute_log (w : Word) : Accessed s (jumpAbsolute w s) (fetch3 s) := by
  simp [Accessed, fetch3, rd, jumpAbsolute, Cpu.incPc, BitVec.add_assoc]

theorem jumpIndirect_log (w : Word) :
    Accessed s (jumpIndirect w s) (fetch3 s ++ [rd s w, rd s (samePageNext w)]) := by
  simp [Accessed, fetch3, rd, jumpIndirect, Cpu.incPc, BitVec.add_assoc]

theorem pushValue_log (value : Cpu → Byte) :
    Accessed s (pushValue value s) (fetch2 s ++
      [.write (stackAddr s.cpu.s) (value { s.cpu with pc := s.cpu.pc + 1, cycles := s.cpu.cycles + 2 })]) := by
  simp [Accessed, fetch2, rd, pushValue, Cpu.incPc, Cpu.tick]

theorem pullValue_log (f : Byte → Cpu → Cpu) :
    Accessed s (pullValue f s) (fetch2 s ++ [rd s (stackAddr s.cpu.s), rd s (stackAddr (s.cpu.s + 1))]) := by
  simp [Accessed, fetch2, rd, pullValue, Cpu.incPc]

theorem jumpToSubroutine_log (target : Word) :
    Accessed s (jumpToSubroutine target s) (fetch2 s ++
      [rd s (stackAddr s.cpu.s), .write (stackAddr s.cpu.s) (hiByte (s.cpu.pc + 2)),
        .write (stackAddr (s.cpu.s - 1)) (loByte (s.cpu.pc + 2)),
        rd (jumpToSubroutine target s) (s.cpu.pc + 2)]) := by
  simp [Accessed, fetch2, rd, jumpToSubroutine, Cpu.incPc, Cpu.tick, Cpu.decS, BitVec.add_assoc]

theorem returnFromSubroutine_log :
    Accessed s (returnFromSubroutine s) (fetch2 s ++
      [rd s (stackAddr s.cpu.s), rd s (stackAddr (s.cpu.s + 1)), rd s (stackAddr (s.cpu.s + 1 + 1)),
        rd s (mkWord (memRead s.bus.mem (stackAddr (s.cpu.s + 1 + 1))) (memRead s.bus.mem (stackAddr (s.cpu.s + 1))))]) := by
  simp [Accessed, fetch2, rd, returnFromSubroutine, Cpu.incPc, Cpu.tick, Cpu.incS, Cpu.jump]

theorem returnFromInterrupt_log :
    Accessed s (returnFromInterrupt s) (fetch2 s ++
      [rd s (stackAddr s.cpu.s), rd s (stackAddr (s.cpu.s + 1)), rd s (stackAddr (s.cpu.s + 1 + 1)),
        rd s (stackAddr (s.cpu.s + 1 + 1 + 1))]) := by
  simp [Accessed, fetch2, rd, returnFromInterrupt, State.returnFromHandler, Cpu.incPc, Cpu.tick, Cpu.incS, Cpu.setP]

theorem enterHandler_log (status : Byte) (v : Word) :
    Accessed s (s.enterHandler status v) [.write (stackAddr s.cpu.s) (hiByte s.cpu.pc),
      .write (stackAddr (s.cpu.s - 1)) (loByte s.cpu.pc), .write (stackAddr (s.cpu.s - 1 - 1)) status,
      rd (s.enterHandler status v) v, rd (s.enterHandler status v) (v + 1)] := by
  simp [Accessed, rd, State.enterHandler, Cpu.tick, Cpu.decS]

/-! ## The bytes an entry and a call push (R216, R217, R213) -/

theorem stackAddr_ne {a b : Byte} (h : a ≠ b) : stackAddr a ≠ stackAddr b := fun e => h (mkWord_inj e).2

theorem ne_sub_one (a : Byte) : a ≠ a - 1 := by intro h; bv_omega

theorem ne_sub_two (a : Byte) : a ≠ a - 2 := by intro h; bv_omega

/-- The three bytes an entry pushes are where the stack pointer says, and no other byte changes. -/
theorem entryMem_pushed {m : Memory} (w : Memory.wf m = true) (sp : Byte) (pc : Word) (status : Byte) :
    PushedThree m (entryMem m sp pc status) sp (hiByte pc) (loByte pc) status := by
  have w1 := memWrite_wf w (stackAddr sp) (hiByte pc)
  have w2 := memWrite_wf w1 (stackAddr (sp - 1)) (loByte pc)
  have two : sp - 1 - 1 = sp - 2 := by bv_omega
  have n1 := stackAddr_ne (ne_sub_one sp)
  have n2 := stackAddr_ne (ne_sub_two sp)
  have n3 : stackAddr (sp - 1) ≠ stackAddr (sp - 2) := stackAddr_ne (by intro h; bv_omega)
  unfold entryMem PushedThree
  rw [two]
  refine ⟨?_, ?_, memRead_memWrite_same w2 _ _, fun b h1 h2 h3 => ?_⟩
  · rw [memRead_memWrite_ne w2 n2.symm, memRead_memWrite_ne w1 n1.symm, memRead_memWrite_same w]
  · rw [memRead_memWrite_ne w2 n3.symm, memRead_memWrite_same w1]
  · rw [memRead_memWrite_ne w2 h3.symm, memRead_memWrite_ne w1 h2.symm, memRead_memWrite_ne w h1.symm]

/-- An entry changes no byte outside page 1. -/
theorem entryMem_outside {m : Memory} (w : Memory.wf m = true) (sp : Byte) (pc : Word) (status : Byte) {a : Word}
    (h : hiByte a ≠ 1) : memRead (entryMem m sp pc status) a = memRead m a := by
  have k (b : Byte) : a ≠ stackAddr b := by rintro rfl; exact h (hiByte_mkWord _ _)
  exact (entryMem_pushed w sp pc status).2.2.2 a (k _) (k _) (k _)

end Sys2Proof.Machine
end

