-- ==== Sys2Proof/Laws/Lines.lean ====
section
/-! SUPPORT. The interrupt lines within a sequence in flight: no cycle of a sequence looks at the request latches or writes them
(R225, R227). -/

namespace Sys2Proof.Machine

variable {β : Type}

/-- The effect of a byte read neither looks at the request latches nor writes them. -/
theorem readEffect_lines (P : Params) (mn) (m) (c : Cpu) (inp) :
    readEffect P mn m (c.setLines inp) = (readEffect P mn m c).setLines inp ∧
      (readEffect P mn m c).nmi = c.nmi ∧ (readEffect P mn m c).irq = c.irq := by
  have fl : Cpu.flag Flag.d (Cpu.setLines inp c) = Cpu.flag Flag.d c := rfl
  cases mn <;> refine ⟨?_, ?_, ?_⟩ <;> simp only [readEffect] <;> first | rfl | (simp only [Cpu.opArr, fl]; split <;> rfl)

/-- Nor does the effect of a read-modify-write. -/
theorem modifyEffect_lines (mn) (m) (c : Cpu) (inp) :
    modifyEffect mn m (c.setLines inp) = ((modifyEffect mn m c).1, (modifyEffect mn m c).2.setLines inp) ∧
      (modifyEffect mn m c).2.nmi = c.nmi ∧ (modifyEffect mn m c).2.irq = c.irq := by
  cases mn <;> refine ⟨?_, ?_, ?_⟩ <;> rfl

/-- A cycle of a sequence neither looks at the request latches nor writes them. -/
theorem perform_lines (P : Params) (B : Bus β) (mn) (cy : Cycle) (s : Sys β) (inp) :
   cy.perform P B mn (s.mapCpu (Cpu.setLines inp)) = ((cy.perform P B mn s).1.mapCpu (Cpu.setLines inp), (cy.perform P B mn s).2) ∧
   (cy.perform P B mn s).1.cpu.nmi = s.cpu.nmi ∧ (cy.perform P B mn s).1.cpu.irq = s.cpu.irq := by
  cases cy
  case implied =>
    cases mn <;> refine ⟨rfl, rfl, rfl⟩
  case immediate =>
    refine ⟨?_, ?_, ?_⟩
    · simp only [Cycle.perform, Sys.mapCpu, Sys.fetch, Sys.read]
      exact congrArg (fun c => ((⟨c, (B.peek s.bus s.cpu.pc).2⟩ : Sys β), true)) 
        (readEffect_lines P mn (B.peek s.bus s.cpu.pc).1 s.cpu.incPc inp).1
    · exact (readEffect_lines P mn _ _ inp).2.1
    · exact (readEffect_lines P mn _ _ inp).2.2
  case readData =>
    refine ⟨?_, ?_, ?_⟩
    · exact congrArg (fun c => ((⟨c, _⟩ : Sys β), true)) (readEffect_lines P mn _ _ inp).1
    · exact (readEffect_lines P mn _ _ inp).2.1
    · exact (readEffect_lines P mn _ _ inp).2.2
  case readUncorrected =>
    have e : (s.mapCpu (Cpu.setLines inp)).cpu.latches.crossed = s.cpu.latches.crossed := rfl
    refine ⟨?_, ?_, ?_⟩
    all_goals simp only [Cycle.perform, Sys.read, e]
    all_goals (by_cases h : s.cpu.latches.crossed = true)
    · simp only [Sys.mapCpu, Cpu.setLines, h]; rfl
    · have h' : s.cpu.latches.crossed = false := by simpa using h
      simp only [Sys.mapCpu, Cpu.setLines, h']
      exact congrArg (fun c => ((⟨c, _⟩ : Sys β), true)) (readEffect_lines P mn _ _ inp).1
    · simp [h]
    · simp only [h]; exact (readEffect_lines P mn _ _ inp).2.1
    · simp [h]
    · simp only [h]; exact (readEffect_lines P mn _ _ inp).2.2
  case writeData =>
    cases mn
    case sha => exact ⟨rfl, rfl, rfl⟩
    case shx => exact ⟨rfl, rfl, rfl⟩
    case shy => exact ⟨rfl, rfl, rfl⟩
    case tas => exact ⟨rfl, rfl, rfl⟩
    all_goals refine ⟨?_, ?_, ?_⟩ <;> simp only [Cycle.perform, unstableEffect] <;> rfl
  case modifyWrite =>
    have a := modifyEffect_lines mn s.cpu.latches.data s.cpu inp
    exact ⟨congrArg (fun x : Byte × Cpu => ((⟨x.2, B.poke s.bus s.cpu.latches.ea x.1⟩ : Sys β), true)) a.1,
      a.2.1, a.2.2⟩
  case branchTake =>
    cases hb : samePage (branchTarget s.cpu.pc s.cpu.latches.b1) s.cpu.pc
    all_goals refine ⟨?_, ?_, ?_⟩
    all_goals simp only [Cycle.perform, Sys.read, Sys.mapCpu, Cpu.latch, Cpu.setLines, Cpu.jump, hb]
    all_goals rfl
  case pushValue =>
    refine ⟨?_, ?_, ?_⟩ <;> by_cases h : mn = .php <;> simp only [Cycle.perform, h] <;> rfl
  case pullValue =>
    refine ⟨?_, ?_, ?_⟩ <;> by_cases h : mn = .plp <;> simp only [Cycle.perform, h] <;> rfl
  all_goals exact ⟨rfl, rfl, rfl⟩


/-- A cycle of an instruction commutes with a write of the lines, leaves them, and never starts an interrupt sequence. -/
theorem instructionCycle_lines (P : Params) (B : Bus β) (row) (cy : Cycle) (s : Sys β) (inp) :
   instructionCycle P B row cy (s.mapCpu (Cpu.setLines inp)) = (instructionCycle P B row cy s).mapCpu (Cpu.setLines inp) ∧
   (instructionCycle P B row cy s).cpu.nmi = s.cpu.nmi ∧ (instructionCycle P B row cy s).cpu.irq = s.cpu.irq ∧
   (instructionCycle P B row cy s).cpu.phase ≠ .handlingInterrupt := by
  obtain ⟨a, b, c⟩ := perform_lines P B row.mnemonic cy s inp
  unfold instructionCycle
  rw [a]
  rcases h : cy.perform P B row.mnemonic s with ⟨t, f⟩
  rw [h] at b c
  have ph : phaseOf row.cls cy ≠ .handlingInterrupt := by
    cases cy <;> simp only [phaseOf] <;> first | decide | (split <;> decide)
  cases f
  · exact ⟨rfl, b, c, ph⟩
  · exact ⟨rfl, b, c, fun h => nomatch h⟩

/-- A cycle of the interrupt sequence commutes with a write of the lines and leaves them. -/
theorem interruptCycle_lines (P : Params) (B : Bus β) (cy : Cycle) (s : Sys β) (inp) :
   interruptCycle P B cy (s.mapCpu (Cpu.setLines inp)) = (interruptCycle P B cy s).mapCpu (Cpu.setLines inp) ∧
   (interruptCycle P B cy s).cpu.nmi = s.cpu.nmi ∧ (interruptCycle P B cy s).cpu.irq = s.cpu.irq := by
  obtain ⟨a, b, c⟩ := perform_lines P B .nop cy s inp
  unfold interruptCycle
  rw [a]
  rcases h : cy.perform P B .nop s with ⟨t, f⟩
  rw [h] at b c
  cases f
  · exact ⟨rfl, b, c⟩
  · exact ⟨rfl, b, c⟩

end Sys2Proof.Machine
end

