-- ==== Sys2Proof/Laws/PerInstr.lean ====
section
/-! SUPPORT. The per-instruction law `TableEntry`: a well-formed instruction is what the opcode map gives for its own opcode byte
and its own operand bytes. One lemma per constructor. -/

namespace Sys2Proof.Laws.TableEntry

/-- The map's entry at an instruction's opcode and operand bytes is that instruction (R68, R69, R72). -/
def Statement (i : Instr) : Prop := i.WellFormed → instrOf i.opcode i.b1 i.b2 = some i

theorem opcodeOk_of_wellFormed {i : Instr} (h : i.WellFormed) : i.opcodeOk = true := by
  simp only [Instr.WellFormed, Instr.wellFormedIn, Bool.and_eq_true] at h
  exact h.1

/-- A word operand is its two bytes. -/
theorem onWord (f : Word → Option Instr) (w : Word) {x : Option Instr} (h : x = f (mkWord (hiByte w) (loByte w))) : x = f w := by
  rw [h, mkWord_hiByte_loByte]

theorem brk : Statement (.brk) := fun _ => by change instrOf 0x00 0 0 = _; rfl
theorem oraIndX (zp : Byte) : Statement (.oraIndX zp) := fun _ => by change instrOf 0x01 zp 0 = _; rfl
theorem jam (op : Byte) : Statement (.jam op) := by
  intro h
  have h := opcodeOk_of_wellFormed h
  simp only [Instr.opcodeOk, jamOpcodes, List.contains_eq_mem, decide_eq_true_eq, List.mem_cons, List.not_mem_nil, or_false] at h
  rcases h with rfl | rfl | rfl | rfl | rfl | rfl | rfl | rfl | rfl | rfl | rfl | rfl
  · change instrOf 0x02 0 0 = _; rfl
  · change instrOf 0x12 0 0 = _; rfl
  · change instrOf 0x22 0 0 = _; rfl
  · change instrOf 0x32 0 0 = _; rfl
  · change instrOf 0x42 0 0 = _; rfl
  · change instrOf 0x52 0 0 = _; rfl
  · change instrOf 0x62 0 0 = _; rfl
  · change instrOf 0x72 0 0 = _; rfl
  · change instrOf 0x92 0 0 = _; rfl
  · change instrOf 0xB2 0 0 = _; rfl
  · change instrOf 0xD2 0 0 = _; rfl
  · change instrOf 0xF2 0 0 = _; rfl
theorem sloIndX (zp : Byte) : Statement (.sloIndX zp) := fun _ => by change instrOf 0x03 zp 0 = _; rfl
theorem nopZp (op : Byte) (zp : Byte) : Statement (.nopZp op zp) := by
  intro h
  have h := opcodeOk_of_wellFormed h
  simp only [Instr.opcodeOk, nopZpOpcodes, List.contains_eq_mem, decide_eq_true_eq, List.mem_cons, List.not_mem_nil, or_false] at h
  rcases h with rfl | rfl | rfl
  · change instrOf 0x04 zp 0 = _; rfl
  · change instrOf 0x44 zp 0 = _; rfl
  · change instrOf 0x64 zp 0 = _; rfl
theorem oraZp (zp : Byte) : Statement (.oraZp zp) := fun _ => by change instrOf 0x05 zp 0 = _; rfl
theorem aslZp (zp : Byte) : Statement (.aslZp zp) := fun _ => by change instrOf 0x06 zp 0 = _; rfl
theorem sloZp (zp : Byte) : Statement (.sloZp zp) := fun _ => by change instrOf 0x07 zp 0 = _; rfl
theorem php : Statement (.php) := fun _ => by change instrOf 0x08 0 0 = _; rfl
theorem oraImm (m : Byte) : Statement (.oraImm m) := fun _ => by change instrOf 0x09 m 0 = _; rfl
theorem aslAcc : Statement (.aslAcc) := fun _ => by change instrOf 0x0A 0 0 = _; rfl
theorem ancImm (op : Byte) (m : Byte) : Statement (.ancImm op m) := by
  intro h
  have h := opcodeOk_of_wellFormed h
  simp only [Instr.opcodeOk, ancOpcodes, List.contains_eq_mem, decide_eq_true_eq, List.mem_cons, List.not_mem_nil, or_false] at h
  rcases h with rfl | rfl
  · change instrOf 0x0B m 0 = _; rfl
  · change instrOf 0x2B m 0 = _; rfl
theorem nopAbs (addr : Word) : Statement (.nopAbs addr) := fun _ =>
  onWord (fun w => some (Instr.nopAbs w)) _ (by change instrOf 0x0C (loByte addr) (hiByte addr) = _; rfl)
theorem oraAbs (addr : Word) : Statement (.oraAbs addr) := fun _ =>
  onWord (fun w => some (Instr.oraAbs w)) _ (by change instrOf 0x0D (loByte addr) (hiByte addr) = _; rfl)
theorem aslAbs (addr : Word) : Statement (.aslAbs addr) := fun _ =>
  onWord (fun w => some (Instr.aslAbs w)) _ (by change instrOf 0x0E (loByte addr) (hiByte addr) = _; rfl)
theorem sloAbs (addr : Word) : Statement (.sloAbs addr) := fun _ =>
  onWord (fun w => some (Instr.sloAbs w)) _ (by change instrOf 0x0F (loByte addr) (hiByte addr) = _; rfl)
theorem bpl (off : Byte) : Statement (.bpl off) := fun _ => by change instrOf 0x10 off 0 = _; rfl
theorem oraIndY (zp : Byte) : Statement (.oraIndY zp) := fun _ => by change instrOf 0x11 zp 0 = _; rfl
theorem sloIndY (zp : Byte) : Statement (.sloIndY zp) := fun _ => by change instrOf 0x13 zp 0 = _; rfl
theorem nopZpX (op : Byte) (zp : Byte) : Statement (.nopZpX op zp) := by
  intro h
  have h := opcodeOk_of_wellFormed h
  simp only [Instr.opcodeOk, nopZpXOpcodes, List.contains_eq_mem, decide_eq_true_eq, List.mem_cons, List.not_mem_nil, or_false] at h
  rcases h with rfl | rfl | rfl | rfl | rfl | rfl
  · change instrOf 0x14 zp 0 = _; rfl
  · change instrOf 0x34 zp 0 = _; rfl
  · change instrOf 0x54 zp 0 = _; rfl
  · change instrOf 0x74 zp 0 = _; rfl
  · change instrOf 0xD4 zp 0 = _; rfl
  · change instrOf 0xF4 zp 0 = _; rfl
theorem oraZpX (zp : Byte) : Statement (.oraZpX zp) := fun _ => by change instrOf 0x15 zp 0 = _; rfl
theorem aslZpX (zp : Byte) : Statement (.aslZpX zp) := fun _ => by change instrOf 0x16 zp 0 = _; rfl
theorem sloZpX (zp : Byte) : Statement (.sloZpX zp) := fun _ => by change instrOf 0x17 zp 0 = _; rfl
theorem clc : Statement (.clc) := fun _ => by change instrOf 0x18 0 0 = _; rfl
theorem oraAbsY (addr : Word) : Statement (.oraAbsY addr) := fun _ =>
  onWord (fun w => some (Instr.oraAbsY w)) _ (by change instrOf 0x19 (loByte addr) (hiByte addr) = _; rfl)
theorem nopImp (op : Byte) : Statement (.nopImp op) := by
  intro h
  have h := opcodeOk_of_wellFormed h
  simp only [Instr.opcodeOk, nopImpOpcodes, List.contains_eq_mem, decide_eq_true_eq, List.mem_cons, List.not_mem_nil, or_false] at h
  rcases h with rfl | rfl | rfl | rfl | rfl | rfl
  · change instrOf 0x1A 0 0 = _; rfl
  · change instrOf 0x3A 0 0 = _; rfl
  · change instrOf 0x5A 0 0 = _; rfl
  · change instrOf 0x7A 0 0 = _; rfl
  · change instrOf 0xDA 0 0 = _; rfl
  · change instrOf 0xFA 0 0 = _; rfl
theorem sloAbsY (addr : Word) : Statement (.sloAbsY addr) := fun _ =>
  onWord (fun w => some (Instr.sloAbsY w)) _ (by change instrOf 0x1B (loByte addr) (hiByte addr) = _; rfl)
theorem nopAbsX (op : Byte) (addr : Word) : Statement (.nopAbsX op addr) := by
  intro h
  have h := opcodeOk_of_wellFormed h
  simp only [Instr.opcodeOk, nopAbsXOpcodes, List.contains_eq_mem, decide_eq_true_eq, List.mem_cons, List.not_mem_nil, or_false] at h
  rcases h with rfl | rfl | rfl | rfl | rfl | rfl
  · exact onWord (fun w => some (Instr.nopAbsX 0x1C w)) _ (by change instrOf 0x1C (loByte addr) (hiByte addr) = _; rfl)
  · exact onWord (fun w => some (Instr.nopAbsX 0x3C w)) _ (by change instrOf 0x3C (loByte addr) (hiByte addr) = _; rfl)
  · exact onWord (fun w => some (Instr.nopAbsX 0x5C w)) _ (by change instrOf 0x5C (loByte addr) (hiByte addr) = _; rfl)
  · exact onWord (fun w => some (Instr.nopAbsX 0x7C w)) _ (by change instrOf 0x7C (loByte addr) (hiByte addr) = _; rfl)
  · exact onWord (fun w => some (Instr.nopAbsX 0xDC w)) _ (by change instrOf 0xDC (loByte addr) (hiByte addr) = _; rfl)
  · exact onWord (fun w => some (Instr.nopAbsX 0xFC w)) _ (by change instrOf 0xFC (loByte addr) (hiByte addr) = _; rfl)
theorem oraAbsX (addr : Word) : Statement (.oraAbsX addr) := fun _ =>
  onWord (fun w => some (Instr.oraAbsX w)) _ (by change instrOf 0x1D (loByte addr) (hiByte addr) = _; rfl)
theorem aslAbsX (addr : Word) : Statement (.aslAbsX addr) := fun _ =>
  onWord (fun w => some (Instr.aslAbsX w)) _ (by change instrOf 0x1E (loByte addr) (hiByte addr) = _; rfl)
theorem sloAbsX (addr : Word) : Statement (.sloAbsX addr) := fun _ =>
  onWord (fun w => some (Instr.sloAbsX w)) _ (by change instrOf 0x1F (loByte addr) (hiByte addr) = _; rfl)
theorem jsr (target : Word) : Statement (.jsr target) := fun _ =>
  onWord (fun w => some (Instr.jsr w)) _ (by change instrOf 0x20 (loByte target) (hiByte target) = _; rfl)
theorem andIndX (zp : Byte) : Statement (.andIndX zp) := fun _ => by change instrOf 0x21 zp 0 = _; rfl
theorem rlaIndX (zp : Byte) : Statement (.rlaIndX zp) := fun _ => by change instrOf 0x23 zp 0 = _; rfl
theorem bitZp (zp : Byte) : Statement (.bitZp zp) := fun _ => by change instrOf 0x24 zp 0 = _; rfl
theorem andZp (zp : Byte) : Statement (.andZp zp) := fun _ => by change instrOf 0x25 zp 0 = _; rfl
theorem rolZp (zp : Byte) : Statement (.rolZp zp) := fun _ => by change instrOf 0x26 zp 0 = _; rfl
theorem rlaZp (zp : Byte) : Statement (.rlaZp zp) := fun _ => by change instrOf 0x27 zp 0 = _; rfl
theorem plp : Statement (.plp) := fun _ => by change instrOf 0x28 0 0 = _; rfl
theorem andImm (m : Byte) : Statement (.andImm m) := fun _ => by change instrOf 0x29 m 0 = _; rfl
theorem rolAcc : Statement (.rolAcc) := fun _ => by change instrOf 0x2A 0 0 = _; rfl
theorem bitAbs (addr : Word) : Statement (.bitAbs addr) := fun _ =>
  onWord (fun w => some (Instr.bitAbs w)) _ (by change instrOf 0x2C (loByte addr) (hiByte addr) = _; rfl)
theorem andAbs (addr : Word) : Statement (.andAbs addr) := fun _ =>
  onWord (fun w => some (Instr.andAbs w)) _ (by change instrOf 0x2D (loByte addr) (hiByte addr) = _; rfl)
theorem rolAbs (addr : Word) : Statement (.rolAbs addr) := fun _ =>
  onWord (fun w => some (Instr.rolAbs w)) _ (by change instrOf 0x2E (loByte addr) (hiByte addr) = _; rfl)
theorem rlaAbs (addr : Word) : Statement (.rlaAbs addr) := fun _ =>
  onWord (fun w => some (Instr.rlaAbs w)) _ (by change instrOf 0x2F (loByte addr) (hiByte addr) = _; rfl)
theorem bmi (off : Byte) : Statement (.bmi off) := fun _ => by change instrOf 0x30 off 0 = _; rfl
theorem andIndY (zp : Byte) : Statement (.andIndY zp) := fun _ => by change instrOf 0x31 zp 0 = _; rfl
theorem rlaIndY (zp : Byte) : Statement (.rlaIndY zp) := fun _ => by change instrOf 0x33 zp 0 = _; rfl
theorem andZpX (zp : Byte) : Statement (.andZpX zp) := fun _ => by change instrOf 0x35 zp 0 = _; rfl
theorem rolZpX (zp : Byte) : Statement (.rolZpX zp) := fun _ => by change instrOf 0x36 zp 0 = _; rfl
theorem rlaZpX (zp : Byte) : Statement (.rlaZpX zp) := fun _ => by change instrOf 0x37 zp 0 = _; rfl
theorem sec : Statement (.sec) := fun _ => by change instrOf 0x38 0 0 = _; rfl
theorem andAbsY (addr : Word) : Statement (.andAbsY addr) := fun _ =>
  onWord (fun w => some (Instr.andAbsY w)) _ (by change instrOf 0x39 (loByte addr) (hiByte addr) = _; rfl)
theorem rlaAbsY (addr : Word) : Statement (.rlaAbsY addr) := fun _ =>
  onWord (fun w => some (Instr.rlaAbsY w)) _ (by change instrOf 0x3B (loByte addr) (hiByte addr) = _; rfl)
theorem andAbsX (addr : Word) : Statement (.andAbsX addr) := fun _ =>
  onWord (fun w => some (Instr.andAbsX w)) _ (by change instrOf 0x3D (loByte addr) (hiByte addr) = _; rfl)
theorem rolAbsX (addr : Word) : Statement (.rolAbsX addr) := fun _ =>
  onWord (fun w => some (Instr.rolAbsX w)) _ (by change instrOf 0x3E (loByte addr) (hiByte addr) = _; rfl)
theorem rlaAbsX (addr : Word) : Statement (.rlaAbsX addr) := fun _ =>
  onWord (fun w => some (Instr.rlaAbsX w)) _ (by change instrOf 0x3F (loByte addr) (hiByte addr) = _; rfl)
theorem rti : Statement (.rti) := fun _ => by change instrOf 0x40 0 0 = _; rfl
theorem eorIndX (zp : Byte) : Statement (.eorIndX zp) := fun _ => by change instrOf 0x41 zp 0 = _; rfl
theorem sreIndX (zp : Byte) : Statement (.sreIndX zp) := fun _ => by change instrOf 0x43 zp 0 = _; rfl
theorem eorZp (zp : Byte) : Statement (.eorZp zp) := fun _ => by change instrOf 0x45 zp 0 = _; rfl
theorem lsrZp (zp : Byte) : Statement (.lsrZp zp) := fun _ => by change instrOf 0x46 zp 0 = _; rfl
theorem sreZp (zp : Byte) : Statement (.sreZp zp) := fun _ => by change instrOf 0x47 zp 0 = _; rfl
theorem pha : Statement (.pha) := fun _ => by change instrOf 0x48 0 0 = _; rfl
theorem eorImm (m : Byte) : Statement (.eorImm m) := fun _ => by change instrOf 0x49 m 0 = _; rfl
theorem lsrAcc : Statement (.lsrAcc) := fun _ => by change instrOf 0x4A 0 0 = _; rfl
theorem alrImm (m : Byte) : Statement (.alrImm m) := fun _ => by change instrOf 0x4B m 0 = _; rfl
theorem jmpAbs (target : Word) : Statement (.jmpAbs target) := fun _ =>
  onWord (fun w => some (Instr.jmpAbs w)) _ (by change instrOf 0x4C (loByte target) (hiByte target) = _; rfl)
theorem eorAbs (addr : Word) : Statement (.eorAbs addr) := fun _ =>
  onWord (fun w => some (Instr.eorAbs w)) _ (by change instrOf 0x4D (loByte addr) (hiByte addr) = _; rfl)
theorem lsrAbs (addr : Word) : Statement (.lsrAbs addr) := fun _ =>
  onWord (fun w => some (Instr.lsrAbs w)) _ (by change instrOf 0x4E (loByte addr) (hiByte addr) = _; rfl)
theorem sreAbs (addr : Word) : Statement (.sreAbs addr) := fun _ =>
  onWord (fun w => some (Instr.sreAbs w)) _ (by change instrOf 0x4F (loByte addr) (hiByte addr) = _; rfl)
theorem bvc (off : Byte) : Statement (.bvc off) := fun _ => by change instrOf 0x50 off 0 = _; rfl
theorem eorIndY (zp : Byte) : Statement (.eorIndY zp) := fun _ => by change instrOf 0x51 zp 0 = _; rfl
theorem sreIndY (zp : Byte) : Statement (.sreIndY zp) := fun _ => by change instrOf 0x53 zp 0 = _; rfl
theorem eorZpX (zp : Byte) : Statement (.eorZpX zp) := fun _ => by change instrOf 0x55 zp 0 = _; rfl
theorem lsrZpX (zp : Byte) : Statement (.lsrZpX zp) := fun _ => by change instrOf 0x56 zp 0 = _; rfl
theorem sreZpX (zp : Byte) : Statement (.sreZpX zp) := fun _ => by change instrOf 0x57 zp 0 = _; rfl
theorem cli : Statement (.cli) := fun _ => by change instrOf 0x58 0 0 = _; rfl
theorem eorAbsY (addr : Word) : Statement (.eorAbsY addr) := fun _ =>
  onWord (fun w => some (Instr.eorAbsY w)) _ (by change instrOf 0x59 (loByte addr) (hiByte addr) = _; rfl)
theorem sreAbsY (addr : Word) : Statement (.sreAbsY addr) := fun _ =>
  onWord (fun w => some (Instr.sreAbsY w)) _ (by change instrOf 0x5B (loByte addr) (hiByte addr) = _; rfl)
theorem eorAbsX (addr : Word) : Statement (.eorAbsX addr) := fun _ =>
  onWord (fun w => some (Instr.eorAbsX w)) _ (by change instrOf 0x5D (loByte addr) (hiByte addr) = _; rfl)
theorem lsrAbsX (addr : Word) : Statement (.lsrAbsX addr) := fun _ =>
  onWord (fun w => some (Instr.lsrAbsX w)) _ (by change instrOf 0x5E (loByte addr) (hiByte addr) = _; rfl)
theorem sreAbsX (addr : Word) : Statement (.sreAbsX addr) := fun _ =>
  onWord (fun w => some (Instr.sreAbsX w)) _ (by change instrOf 0x5F (loByte addr) (hiByte addr) = _; rfl)
theorem rts : Statement (.rts) := fun _ => by change instrOf 0x60 0 0 = _; rfl
theorem adcIndX (zp : Byte) : Statement (.adcIndX zp) := fun _ => by change instrOf 0x61 zp 0 = _; rfl
theorem rraIndX (zp : Byte) : Statement (.rraIndX zp) := fun _ => by change instrOf 0x63 zp 0 = _; rfl
theorem adcZp (zp : Byte) : Statement (.adcZp zp) := fun _ => by change instrOf 0x65 zp 0 = _; rfl
theorem rorZp (zp : Byte) : Statement (.rorZp zp) := fun _ => by change instrOf 0x66 zp 0 = _; rfl
theorem rraZp (zp : Byte) : Statement (.rraZp zp) := fun _ => by change instrOf 0x67 zp 0 = _; rfl
theorem pla : Statement (.pla) := fun _ => by change instrOf 0x68 0 0 = _; rfl
theorem adcImm (m : Byte) : Statement (.adcImm m) := fun _ => by change instrOf 0x69 m 0 = _; rfl
theorem rorAcc : Statement (.rorAcc) := fun _ => by change instrOf 0x6A 0 0 = _; rfl
theorem arrImm (m : Byte) : Statement (.arrImm m) := fun _ => by change instrOf 0x6B m 0 = _; rfl
theorem jmpInd (ptr : Word) : Statement (.jmpInd ptr) := fun _ =>
  onWord (fun w => some (Instr.jmpInd w)) _ (by change instrOf 0x6C (loByte ptr) (hiByte ptr) = _; rfl)
theorem adcAbs (addr : Word) : Statement (.adcAbs addr) := fun _ =>
  onWord (fun w => some (Instr.adcAbs w)) _ (by change instrOf 0x6D (loByte addr) (hiByte addr) = _; rfl)
theorem rorAbs (addr : Word) : Statement (.rorAbs addr) := fun _ =>
  onWord (fun w => some (Instr.rorAbs w)) _ (by change instrOf 0x6E (loByte addr) (hiByte addr) = _; rfl)
theorem rraAbs (addr : Word) : Statement (.rraAbs addr) := fun _ =>
  onWord (fun w => some (Instr.rraAbs w)) _ (by change instrOf 0x6F (loByte addr) (hiByte addr) = _; rfl)
theorem bvs (off : Byte) : Statement (.bvs off) := fun _ => by change instrOf 0x70 off 0 = _; rfl
theorem adcIndY (zp : Byte) : Statement (.adcIndY zp) := fun _ => by change instrOf 0x71 zp 0 = _; rfl
theorem rraIndY (zp : Byte) : Statement (.rraIndY zp) := fun _ => by change instrOf 0x73 zp 0 = _; rfl
theorem adcZpX (zp : Byte) : Statement (.adcZpX zp) := fun _ => by change instrOf 0x75 zp 0 = _; rfl
theorem rorZpX (zp : Byte) : Statement (.rorZpX zp) := fun _ => by change instrOf 0x76 zp 0 = _; rfl
theorem rraZpX (zp : Byte) : Statement (.rraZpX zp) := fun _ => by change instrOf 0x77 zp 0 = _; rfl
theorem sei : Statement (.sei) := fun _ => by change instrOf 0x78 0 0 = _; rfl
theorem adcAbsY (addr : Word) : Statement (.adcAbsY addr) := fun _ =>
  onWord (fun w => some (Instr.adcAbsY w)) _ (by change instrOf 0x79 (loByte addr) (hiByte addr) = _; rfl)
theorem rraAbsY (addr : Word) : Statement (.rraAbsY addr) := fun _ =>
  onWord (fun w => some (Instr.rraAbsY w)) _ (by change instrOf 0x7B (loByte addr) (hiByte addr) = _; rfl)
theorem adcAbsX (addr : Word) : Statement (.adcAbsX addr) := fun _ =>
  onWord (fun w => some (Instr.adcAbsX w)) _ (by change instrOf 0x7D (loByte addr) (hiByte addr) = _; rfl)
theorem rorAbsX (addr : Word) : Statement (.rorAbsX addr) := fun _ =>
  onWord (fun w => some (Instr.rorAbsX w)) _ (by change instrOf 0x7E (loByte addr) (hiByte addr) = _; rfl)
theorem rraAbsX (addr : Word) : Statement (.rraAbsX addr) := fun _ =>
  onWord (fun w => some (Instr.rraAbsX w)) _ (by change instrOf 0x7F (loByte addr) (hiByte addr) = _; rfl)
theorem nopImm (op : Byte) (m : Byte) : Statement (.nopImm op m) := by
  intro h
  have h := opcodeOk_of_wellFormed h
  simp only [Instr.opcodeOk, nopImmOpcodes, List.contains_eq_mem, decide_eq_true_eq, List.mem_cons, List.not_mem_nil, or_false] at h
  rcases h with rfl | rfl | rfl | rfl | rfl
  · change instrOf 0x80 m 0 = _; rfl
  · change instrOf 0x82 m 0 = _; rfl
  · change instrOf 0x89 m 0 = _; rfl
  · change instrOf 0xC2 m 0 = _; rfl
  · change instrOf 0xE2 m 0 = _; rfl
theorem staIndX (zp : Byte) : Statement (.staIndX zp) := fun _ => by change instrOf 0x81 zp 0 = _; rfl
theorem saxIndX (zp : Byte) : Statement (.saxIndX zp) := fun _ => by change instrOf 0x83 zp 0 = _; rfl
theorem styZp (zp : Byte) : Statement (.styZp zp) := fun _ => by change instrOf 0x84 zp 0 = _; rfl
theorem staZp (zp : Byte) : Statement (.staZp zp) := fun _ => by change instrOf 0x85 zp 0 = _; rfl
theorem stxZp (zp : Byte) : Statement (.stxZp zp) := fun _ => by change instrOf 0x86 zp 0 = _; rfl
theorem saxZp (zp : Byte) : Statement (.saxZp zp) := fun _ => by change instrOf 0x87 zp 0 = _; rfl
theorem dey : Statement (.dey) := fun _ => by change instrOf 0x88 0 0 = _; rfl
theorem txa : Statement (.txa) := fun _ => by change instrOf 0x8A 0 0 = _; rfl
theorem aneImm (m : Byte) : Statement (.aneImm m) := fun _ => by change instrOf 0x8B m 0 = _; rfl
theorem styAbs (addr : Word) : Statement (.styAbs addr) := fun _ =>
  onWord (fun w => some (Instr.styAbs w)) _ (by change instrOf 0x8C (loByte addr) (hiByte addr) = _; rfl)
theorem staAbs (addr : Word) : Statement (.staAbs addr) := fun _ =>
  onWord (fun w => some (Instr.staAbs w)) _ (by change instrOf 0x8D (loByte addr) (hiByte addr) = _; rfl)
theorem stxAbs (addr : Word) : Statement (.stxAbs addr) := fun _ =>
  onWord (fun w => some (Instr.stxAbs w)) _ (by change instrOf 0x8E (loByte addr) (hiByte addr) = _; rfl)
theorem saxAbs (addr : Word) : Statement (.saxAbs addr) := fun _ =>
  onWord (fun w => some (Instr.saxAbs w)) _ (by change instrOf 0x8F (loByte addr) (hiByte addr) = _; rfl)
theorem bcc (off : Byte) : Statement (.bcc off) := fun _ => by change instrOf 0x90 off 0 = _; rfl
theorem staIndY (zp : Byte) : Statement (.staIndY zp) := fun _ => by change instrOf 0x91 zp 0 = _; rfl
theorem shaIndY (zp : Byte) : Statement (.shaIndY zp) := fun _ => by change instrOf 0x93 zp 0 = _; rfl
theorem styZpX (zp : Byte) : Statement (.styZpX zp) := fun _ => by change instrOf 0x94 zp 0 = _; rfl
theorem staZpX (zp : Byte) : Statement (.staZpX zp) := fun _ => by change instrOf 0x95 zp 0 = _; rfl
theorem stxZpY (zp : Byte) : Statement (.stxZpY zp) := fun _ => by change instrOf 0x96 zp 0 = _; rfl
theorem saxZpY (zp : Byte) : Statement (.saxZpY zp) := fun _ => by change instrOf 0x97 zp 0 = _; rfl
theorem tya : Statement (.tya) := fun _ => by change instrOf 0x98 0 0 = _; rfl
theorem staAbsY (addr : Word) : Statement (.staAbsY addr) := fun _ =>
  onWord (fun w => some (Instr.staAbsY w)) _ (by change instrOf 0x99 (loByte addr) (hiByte addr) = _; rfl)
theorem txs : Statement (.txs) := fun _ => by change instrOf 0x9A 0 0 = _; rfl
theorem tasAbsY (addr : Word) : Statement (.tasAbsY addr) := fun _ =>
  onWord (fun w => some (Instr.tasAbsY w)) _ (by change instrOf 0x9B (loByte addr) (hiByte addr) = _; rfl)
theorem shyAbsX (addr : Word) : Statement (.shyAbsX addr) := fun _ =>
  onWord (fun w => some (Instr.shyAbsX w)) _ (by change instrOf 0x9C (loByte addr) (hiByte addr) = _; rfl)
theorem staAbsX (addr : Word) : Statement (.staAbsX addr) := fun _ =>
  onWord (fun w => some (Instr.staAbsX w)) _ (by change instrOf 0x9D (loByte addr) (hiByte addr) = _; rfl)
theorem shxAbsY (addr : Word) : Statement (.shxAbsY addr) := fun _ =>
  onWord (fun w => some (Instr.shxAbsY w)) _ (by change instrOf 0x9E (loByte addr) (hiByte addr) = _; rfl)
theorem shaAbsY (addr : Word) : Statement (.shaAbsY addr) := fun _ =>
  onWord (fun w => some (Instr.shaAbsY w)) _ (by change instrOf 0x9F (loByte addr) (hiByte addr) = _; rfl)
theorem ldyImm (m : Byte) : Statement (.ldyImm m) := fun _ => by change instrOf 0xA0 m 0 = _; rfl
theorem ldaIndX (zp : Byte) : Statement (.ldaIndX zp) := fun _ => by change instrOf 0xA1 zp 0 = _; rfl
theorem ldxImm (m : Byte) : Statement (.ldxImm m) := fun _ => by change instrOf 0xA2 m 0 = _; rfl
theorem laxIndX (zp : Byte) : Statement (.laxIndX zp) := fun _ => by change instrOf 0xA3 zp 0 = _; rfl
theorem ldyZp (zp : Byte) : Statement (.ldyZp zp) := fun _ => by change instrOf 0xA4 zp 0 = _; rfl
theorem ldaZp (zp : Byte) : Statement (.ldaZp zp) := fun _ => by change instrOf 0xA5 zp 0 = _; rfl
theorem ldxZp (zp : Byte) : Statement (.ldxZp zp) := fun _ => by change instrOf 0xA6 zp 0 = _; rfl
theorem laxZp (zp : Byte) : Statement (.laxZp zp) := fun _ => by change instrOf 0xA7 zp 0 = _; rfl
theorem tay : Statement (.tay) := fun _ => by change instrOf 0xA8 0 0 = _; rfl
theorem ldaImm (m : Byte) : Statement (.ldaImm m) := fun _ => by change instrOf 0xA9 m 0 = _; rfl
theorem tax : Statement (.tax) := fun _ => by change instrOf 0xAA 0 0 = _; rfl
theorem lxaImm (m : Byte) : Statement (.lxaImm m) := fun _ => by change instrOf 0xAB m 0 = _; rfl
theorem ldyAbs (addr : Word) : Statement (.ldyAbs addr) := fun _ =>
  onWord (fun w => some (Instr.ldyAbs w)) _ (by change instrOf 0xAC (loByte addr) (hiByte addr) = _; rfl)
theorem ldaAbs (addr : Word) : Statement (.ldaAbs addr) := fun _ =>
  onWord (fun w => some (Instr.ldaAbs w)) _ (by change instrOf 0xAD (loByte addr) (hiByte addr) = _; rfl)
theorem ldxAbs (addr : Word) : Statement (.ldxAbs addr) := fun _ =>
  onWord (fun w => some (Instr.ldxAbs w)) _ (by change instrOf 0xAE (loByte addr) (hiByte addr) = _; rfl)
theorem laxAbs (addr : Word) : Statement (.laxAbs addr) := fun _ =>
  onWord (fun w => some (Instr.laxAbs w)) _ (by change instrOf 0xAF (loByte addr) (hiByte addr) = _; rfl)
theorem bcs (off : Byte) : Statement (.bcs off) := fun _ => by change instrOf 0xB0 off 0 = _; rfl
theorem ldaIndY (zp : Byte) : Statement (.ldaIndY zp) := fun _ => by change instrOf 0xB1 zp 0 = _; rfl
theorem laxIndY (zp : Byte) : Statement (.laxIndY zp) := fun _ => by change instrOf 0xB3 zp 0 = _; rfl
theorem ldyZpX (zp : Byte) : Statement (.ldyZpX zp) := fun _ => by change instrOf 0xB4 zp 0 = _; rfl
theorem ldaZpX (zp : Byte) : Statement (.ldaZpX zp) := fun _ => by change instrOf 0xB5 zp 0 = _; rfl
theorem ldxZpY (zp : Byte) : Statement (.ldxZpY zp) := fun _ => by change instrOf 0xB6 zp 0 = _; rfl
theorem laxZpY (zp : Byte) : Statement (.laxZpY zp) := fun _ => by change instrOf 0xB7 zp 0 = _; rfl
theorem clv : Statement (.clv) := fun _ => by change instrOf 0xB8 0 0 = _; rfl
theorem ldaAbsY (addr : Word) : Statement (.ldaAbsY addr) := fun _ =>
  onWord (fun w => some (Instr.ldaAbsY w)) _ (by change instrOf 0xB9 (loByte addr) (hiByte addr) = _; rfl)
theorem tsx : Statement (.tsx) := fun _ => by change instrOf 0xBA 0 0 = _; rfl
theorem lasAbsY (addr : Word) : Statement (.lasAbsY addr) := fun _ =>
  onWord (fun w => some (Instr.lasAbsY w)) _ (by change instrOf 0xBB (loByte addr) (hiByte addr) = _; rfl)
theorem ldyAbsX (addr : Word) : Statement (.ldyAbsX addr) := fun _ =>
  onWord (fun w => some (Instr.ldyAbsX w)) _ (by change instrOf 0xBC (loByte addr) (hiByte addr) = _; rfl)
theorem ldaAbsX (addr : Word) : Statement (.ldaAbsX addr) := fun _ =>
  onWord (fun w => some (Instr.ldaAbsX w)) _ (by change instrOf 0xBD (loByte addr) (hiByte addr) = _; rfl)
theorem ldxAbsY (addr : Word) : Statement (.ldxAbsY addr) := fun _ =>
  onWord (fun w => some (Instr.ldxAbsY w)) _ (by change instrOf 0xBE (loByte addr) (hiByte addr) = _; rfl)
theorem laxAbsY (addr : Word) : Statement (.laxAbsY addr) := fun _ =>
  onWord (fun w => some (Instr.laxAbsY w)) _ (by change instrOf 0xBF (loByte addr) (hiByte addr) = _; rfl)
theorem cpyImm (m : Byte) : Statement (.cpyImm m) := fun _ => by change instrOf 0xC0 m 0 = _; rfl
theorem cmpIndX (zp : Byte) : Statement (.cmpIndX zp) := fun _ => by change instrOf 0xC1 zp 0 = _; rfl
theorem dcpIndX (zp : Byte) : Statement (.dcpIndX zp) := fun _ => by change instrOf 0xC3 zp 0 = _; rfl
theorem cpyZp (zp : Byte) : Statement (.cpyZp zp) := fun _ => by change instrOf 0xC4 zp 0 = _; rfl
theorem cmpZp (zp : Byte) : Statement (.cmpZp zp) := fun _ => by change instrOf 0xC5 zp 0 = _; rfl
theorem decZp (zp : Byte) : Statement (.decZp zp) := fun _ => by change instrOf 0xC6 zp 0 = _; rfl
theorem dcpZp (zp : Byte) : Statement (.dcpZp zp) := fun _ => by change instrOf 0xC7 zp 0 = _; rfl
theorem iny : Statement (.iny) := fun _ => by change instrOf 0xC8 0 0 = _; rfl
theorem cmpImm (m : Byte) : Statement (.cmpImm m) := fun _ => by change instrOf 0xC9 m 0 = _; rfl
theorem dex : Statement (.dex) := fun _ => by change instrOf 0xCA 0 0 = _; rfl
theorem sbxImm (m : Byte) : Statement (.sbxImm m) := fun _ => by change instrOf 0xCB m 0 = _; rfl
theorem cpyAbs (addr : Word) : Statement (.cpyAbs addr) := fun _ =>
  onWord (fun w => some (Instr.cpyAbs w)) _ (by change instrOf 0xCC (loByte addr) (hiByte addr) = _; rfl)
theorem cmpAbs (addr : Word) : Statement (.cmpAbs addr) := fun _ =>
  onWord (fun w => some (Instr.cmpAbs w)) _ (by change instrOf 0xCD (loByte addr) (hiByte addr) = _; rfl)
theorem decAbs (addr : Word) : Statement (.decAbs addr) := fun _ =>
  onWord (fun w => some (Instr.decAbs w)) _ (by change instrOf 0xCE (loByte addr) (hiByte addr) = _; rfl)
theorem dcpAbs (addr : Word) : Statement (.dcpAbs addr) := fun _ =>
  onWord (fun w => some (Instr.dcpAbs w)) _ (by change instrOf 0xCF (loByte addr) (hiByte addr) = _; rfl)
theorem bne (off : Byte) : Statement (.bne off) := fun _ => by change instrOf 0xD0 off 0 = _; rfl
theorem cmpIndY (zp : Byte) : Statement (.cmpIndY zp) := fun _ => by change instrOf 0xD1 zp 0 = _; rfl
theorem dcpIndY (zp : Byte) : Statement (.dcpIndY zp) := fun _ => by change instrOf 0xD3 zp 0 = _; rfl
theorem cmpZpX (zp : Byte) : Statement (.cmpZpX zp) := fun _ => by change instrOf 0xD5 zp 0 = _; rfl
theorem decZpX (zp : Byte) : Statement (.decZpX zp) := fun _ => by change instrOf 0xD6 zp 0 = _; rfl
theorem dcpZpX (zp : Byte) : Statement (.dcpZpX zp) := fun _ => by change instrOf 0xD7 zp 0 = _; rfl
theorem cld : Statement (.cld) := fun _ => by change instrOf 0xD8 0 0 = _; rfl
theorem cmpAbsY (addr : Word) : Statement (.cmpAbsY addr) := fun _ =>
  onWord (fun w => some (Instr.cmpAbsY w)) _ (by change instrOf 0xD9 (loByte addr) (hiByte addr) = _; rfl)
theorem dcpAbsY (addr : Word) : Statement (.dcpAbsY addr) := fun _ =>
  onWord (fun w => some (Instr.dcpAbsY w)) _ (by change instrOf 0xDB (loByte addr) (hiByte addr) = _; rfl)
theorem cmpAbsX (addr : Word) : Statement (.cmpAbsX addr) := fun _ =>
  onWord (fun w => some (Instr.cmpAbsX w)) _ (by change instrOf 0xDD (loByte addr) (hiByte addr) = _; rfl)
theorem decAbsX (addr : Word) : Statement (.decAbsX addr) := fun _ =>
  onWord (fun w => some (Instr.decAbsX w)) _ (by change instrOf 0xDE (loByte addr) (hiByte addr) = _; rfl)
theorem dcpAbsX (addr : Word) : Statement (.dcpAbsX addr) := fun _ =>
  onWord (fun w => some (Instr.dcpAbsX w)) _ (by change instrOf 0xDF (loByte addr) (hiByte addr) = _; rfl)
theorem cpxImm (m : Byte) : Statement (.cpxImm m) := fun _ => by change instrOf 0xE0 m 0 = _; rfl
theorem sbcIndX (zp : Byte) : Statement (.sbcIndX zp) := fun _ => by change instrOf 0xE1 zp 0 = _; rfl
theorem iscIndX (zp : Byte) : Statement (.iscIndX zp) := fun _ => by change instrOf 0xE3 zp 0 = _; rfl
theorem cpxZp (zp : Byte) : Statement (.cpxZp zp) := fun _ => by change instrOf 0xE4 zp 0 = _; rfl
theorem sbcZp (zp : Byte) : Statement (.sbcZp zp) := fun _ => by change instrOf 0xE5 zp 0 = _; rfl
theorem incZp (zp : Byte) : Statement (.incZp zp) := fun _ => by change instrOf 0xE6 zp 0 = _; rfl
theorem iscZp (zp : Byte) : Statement (.iscZp zp) := fun _ => by change instrOf 0xE7 zp 0 = _; rfl
theorem inx : Statement (.inx) := fun _ => by change instrOf 0xE8 0 0 = _; rfl
theorem sbcImm (m : Byte) : Statement (.sbcImm m) := fun _ => by change instrOf 0xE9 m 0 = _; rfl
theorem nop : Statement (.nop) := fun _ => by change instrOf 0xEA 0 0 = _; rfl
theorem usbcImm (m : Byte) : Statement (.usbcImm m) := fun _ => by change instrOf 0xEB m 0 = _; rfl
theorem cpxAbs (addr : Word) : Statement (.cpxAbs addr) := fun _ =>
  onWord (fun w => some (Instr.cpxAbs w)) _ (by change instrOf 0xEC (loByte addr) (hiByte addr) = _; rfl)
theorem sbcAbs (addr : Word) : Statement (.sbcAbs addr) := fun _ =>
  onWord (fun w => some (Instr.sbcAbs w)) _ (by change instrOf 0xED (loByte addr) (hiByte addr) = _; rfl)
theorem incAbs (addr : Word) : Statement (.incAbs addr) := fun _ =>
  onWord (fun w => some (Instr.incAbs w)) _ (by change instrOf 0xEE (loByte addr) (hiByte addr) = _; rfl)
theorem iscAbs (addr : Word) : Statement (.iscAbs addr) := fun _ =>
  onWord (fun w => some (Instr.iscAbs w)) _ (by change instrOf 0xEF (loByte addr) (hiByte addr) = _; rfl)
theorem beq (off : Byte) : Statement (.beq off) := fun _ => by change instrOf 0xF0 off 0 = _; rfl
theorem sbcIndY (zp : Byte) : Statement (.sbcIndY zp) := fun _ => by change instrOf 0xF1 zp 0 = _; rfl
theorem iscIndY (zp : Byte) : Statement (.iscIndY zp) := fun _ => by change instrOf 0xF3 zp 0 = _; rfl
theorem sbcZpX (zp : Byte) : Statement (.sbcZpX zp) := fun _ => by change instrOf 0xF5 zp 0 = _; rfl
theorem incZpX (zp : Byte) : Statement (.incZpX zp) := fun _ => by change instrOf 0xF6 zp 0 = _; rfl
theorem iscZpX (zp : Byte) : Statement (.iscZpX zp) := fun _ => by change instrOf 0xF7 zp 0 = _; rfl
theorem sed : Statement (.sed) := fun _ => by change instrOf 0xF8 0 0 = _; rfl
theorem sbcAbsY (addr : Word) : Statement (.sbcAbsY addr) := fun _ =>
  onWord (fun w => some (Instr.sbcAbsY w)) _ (by change instrOf 0xF9 (loByte addr) (hiByte addr) = _; rfl)
theorem iscAbsY (addr : Word) : Statement (.iscAbsY addr) := fun _ =>
  onWord (fun w => some (Instr.iscAbsY w)) _ (by change instrOf 0xFB (loByte addr) (hiByte addr) = _; rfl)
theorem sbcAbsX (addr : Word) : Statement (.sbcAbsX addr) := fun _ =>
  onWord (fun w => some (Instr.sbcAbsX w)) _ (by change instrOf 0xFD (loByte addr) (hiByte addr) = _; rfl)
theorem incAbsX (addr : Word) : Statement (.incAbsX addr) := fun _ =>
  onWord (fun w => some (Instr.incAbsX w)) _ (by change instrOf 0xFE (loByte addr) (hiByte addr) = _; rfl)
theorem iscAbsX (addr : Word) : Statement (.iscAbsX addr) := fun _ =>
  onWord (fun w => some (Instr.iscAbsX w)) _ (by change instrOf 0xFF (loByte addr) (hiByte addr) = _; rfl)

end Sys2Proof.Laws.TableEntry
end

