-- ==== Sys2Proof/Machine/Assembly.lean ====
section
/-! DEFINITION. Assembler syntax (R78) and the alternative spellings of the undocumented mnemonics (R79): what the core's
instructions are written as. The core consumes bytes; nothing else in the model reads this file. -/

namespace Sys2Proof.Machine

/-- The mnemonic as it is written. -/
def mnemonicText : Mnemonic → String
  | .adc => "ADC" | .alr => "ALR" | .anc => "ANC" | .and => "AND"
  | .ane => "ANE" | .arr => "ARR" | .asl => "ASL" | .bcc => "BCC"
  | .bcs => "BCS" | .beq => "BEQ" | .bit => "BIT" | .bmi => "BMI"
  | .bne => "BNE" | .bpl => "BPL" | .brk => "BRK" | .bvc => "BVC"
  | .bvs => "BVS" | .clc => "CLC" | .cld => "CLD" | .cli => "CLI"
  | .clv => "CLV" | .cmp => "CMP" | .cpx => "CPX" | .cpy => "CPY"
  | .dcp => "DCP" | .dec => "DEC" | .dex => "DEX" | .dey => "DEY"
  | .eor => "EOR" | .inc => "INC" | .inx => "INX" | .iny => "INY"
  | .isc => "ISC" | .jam => "JAM" | .jmp => "JMP" | .jsr => "JSR"
  | .las => "LAS" | .lax => "LAX" | .lda => "LDA" | .ldx => "LDX"
  | .ldy => "LDY" | .lsr => "LSR" | .lxa => "LXA" | .nop => "NOP"
  | .ora => "ORA" | .pha => "PHA" | .php => "PHP" | .pla => "PLA"
  | .plp => "PLP" | .rla => "RLA" | .rol => "ROL" | .ror => "ROR"
  | .rra => "RRA" | .rti => "RTI" | .rts => "RTS" | .sax => "SAX"
  | .sbc => "SBC" | .sbx => "SBX" | .sec => "SEC" | .sed => "SED"
  | .sei => "SEI" | .sha => "SHA" | .shx => "SHX" | .shy => "SHY"
  | .slo => "SLO" | .sre => "SRE" | .sta => "STA" | .stx => "STX"
  | .sty => "STY" | .tas => "TAS" | .tax => "TAX" | .tay => "TAY"
  | .tsx => "TSX" | .txa => "TXA" | .txs => "TXS" | .tya => "TYA"

/-- The other spellings of an undocumented mnemonic (R79). Where one spelling stands for two opcodes in different tables, both
list it. -/
def otherSpellings : Mnemonic → List String
  | .slo => ["ASO"]
  | .sre => ["LSE"]
  | .sax => ["AXS", "AAX"]
  | .dcp => ["DCM"]
  | .isc => ["ISB", "INS"]
  | .anc => ["AAC"]
  | .alr => ["ASR"]
  | .sbx => ["AXS", "SAX"]
  | .ane => ["XAA"]
  | .lxa => ["ATX", "OAL"]
  | .las => ["LAR", "LAE"]
  | .sha => ["AHX", "AXA"]
  | .shx => ["SXA", "XAS"]
  | .shy => ["SYA", "SAY"]
  | .tas => ["XAS", "SHS"]
  | .jam => ["KIL", "HLT"]
  | .nop => ["DOP", "TOP", "SKB", "SKW"]
  | .sbc => ["USBC"]
  | _ => []

/-- One hexadecimal digit. -/
def hexDigit (n : Nat) : String :=
  ["0", "1", "2", "3", "4", "5", "6", "7", "8", "9", "A", "B", "C", "D", "E", "F"].getD n "?"

/-- A byte as two hexadecimal digits. -/
def hexByte (b : Byte) : String := hexDigit (b.toNat / 16) ++ hexDigit (b.toNat % 16)

/-- A word as four hexadecimal digits. -/
def hexWord (w : Word) : String := hexByte (hiByte w) ++ hexByte (loByte w)

/-- The operand's text by mode (R78). A branch names its target, which an assembler turns into the offset; `pc` is the address
of the instruction. -/
def operandText (mode : Mode) (b1 b2 : Byte) (pc : Word) : String :=
  let w := mkWord b2 b1
  match mode with
  | .implied => ""
  | .accumulator => " A"
  | .immediate => " #$" ++ hexByte b1
  | .relative => " $" ++ hexWord (pc + 2 + signExtend b1)
  | .zeropage => " $" ++ hexByte b1
  | .zeropageX => " $" ++ hexByte b1 ++ ",X"
  | .zeropageY => " $" ++ hexByte b1 ++ ",Y"
  | .absolute => " $" ++ hexWord w
  | .absoluteX => " $" ++ hexWord w ++ ",X"
  | .absoluteY => " $" ++ hexWord w ++ ",Y"
  | .indirect => " ($" ++ hexWord w ++ ")"
  | .indirectX => " ($" ++ hexByte b1 ++ ",X)"
  | .indirectY => " ($" ++ hexByte b1 ++ "),Y"

/-- An instruction at `pc` in assembler syntax (R78). -/
def assemblyText (pc : Word) (i : Instr) : String :=
  match i.row? with
  | none => "?"
  | some r => mnemonicText r.mnemonic ++ operandText r.mode i.b1 i.b2 pc

end Sys2Proof.Machine
end

