-- ==== Sys2Proof/Tests/Slice0.lean ====
section
/-! SUPPORT. Tests. Ill-formed terms that each check of WellFormed refuses; words written out bit by bit from the opcode map
(R72) and the byte order (R69); one step of every mnemonic and of the interrupts with the results the spec's test vectors give
(95_test_vectors.md, the vector's name stands in the docstring); bus traces from the same file; and a witness for the hypotheses
of every obligation. -/

namespace Sys2Proof.Tests

open Sys2Proof.Machine

/-! ## WellFormed refuses -/

/-- An instruction that shares its constructor carries one of its own opcodes (R73, R76): 0x00 is BRK's. -/
theorem test_wf_refuses_other_opcode :
    (Instr.jam 0x00).opcodeOk = false ∧ (Instr.nopImp 0xEA).opcodeOk = false ∧ (Instr.nopImm 0xA9 0).opcodeOk = false ∧
    (Instr.nopZp 0x24 0).opcodeOk = false ∧ (Instr.nopZpX 0xB4 0).opcodeOk = false ∧ (Instr.nopAbsX 0xBC 0).opcodeOk = false ∧
    (Instr.ancImm 0x29 0).opcodeOk = false ∧ ¬ (Instr.jam 0x00).WellFormed := by decide

/-- The boundary flag only on read entries of the modes that index a base (R74). -/
theorem test_wf_refuses_boundary :
    (Row.mk .sta .absoluteX 5 true false .write).boundaryOk = false ∧ (Row.mk .lda .absoluteX 4 false false .read).boundaryOk = false ∧
    (Row.mk .lda .zeropage 3 true false .read).boundaryOk = false := by decide

/-- No store has an immediate form, no read-modify-write entry is implied, JAM is implied (R71). -/
theorem test_wf_refuses_mode :
    (Row.mk .sta .immediate 2 false false .write).modeOk = false ∧ (Row.mk .inc .implied 2 false false .rmw).modeOk = false ∧
    (Row.mk .jam .immediate 1 false true .halt).modeOk = false ∧ (Row.mk .jmp .zeropage 3 false false .control).modeOk = false := by decide

/-- The base count is the length of the sequence (R219). -/
theorem test_wf_refuses_cycles :
    (Row.mk .lda .zeropage 4 false false .read).cyclesOk = false ∧ (Row.mk .jam .implied 2 false true .halt).cyclesOk = false ∧
    (Row.mk .brk .implied 6 false false .control).cyclesOk = false := by decide

/-- An instruction whose opcode the table has no entry for, and one whose entry has another length, are ill-formed (R66, R77). -/
theorem test_wf_refuses_table :
    Instr.wellFormedIn (fun _ => none) (.ldaImm 0x80) = false ∧
    Instr.wellFormedIn (fun _ => some ⟨.lda, .absolute, 4, false, false, .read⟩) (.ldaImm 0x80) = false ∧
    Instr.wellFormedIn opcodeTable (.ldaImm 0x80) = true := by decide

/-! ## Decoding: the bytes in address order, each bit by bit -/

theorem test_decode_load_store :
    decode [0b10101001, 0b10000000] = .ok (.ldaImm 0x80, []) ∧ decode [0b10110110, 0b11110000] = .ok (.ldxZpY 0xF0, []) ∧
    decode [0b10101100, 0b00110100, 0b00010010] = .ok (.ldyAbs 0x1234, []) ∧ decode [0b10010001, 0b01000000] = .ok (.staIndY 0x40, []) ∧
    decode [0b10000110, 0b11111111] = .ok (.stxZp 0xFF, []) ∧ decode [0b10010100, 0b10000000] = .ok (.styZpX 0x80, []) := by decide

theorem test_decode_arithmetic :
    decode [0b01100001, 0b00010000] = .ok (.adcIndX 0x10, []) ∧ decode [0b11111001, 0b11111111, 0b00000001] = .ok (.sbcAbsY 0x01FF, []) ∧
    decode [0b11011101, 0b00000000, 0b10000000] = .ok (.cmpAbsX 0x8000, []) ∧ decode [0b11100100, 0b00000001] = .ok (.cpxZp 0x01, []) ∧
    decode [0b11000000, 0b00000000] = .ok (.cpyImm 0x00, []) ∧ decode [0b11110110, 0b01111111] = .ok (.incZpX 0x7F, []) ∧
    decode [0b11001110, 0b11111110, 0b11001010] = .ok (.decAbs 0xCAFE, []) ∧ decode [0b11101000] = .ok (.inx, []) ∧
    decode [0b10001000] = .ok (.dey, []) := by decide

theorem test_decode_bitwise :
    decode [0b00100001, 0b00000010] = .ok (.andIndX 0x02, []) ∧ decode [0b00010001, 0b00000010] = .ok (.oraIndY 0x02, []) ∧
    decode [0b01001001, 0b11111111] = .ok (.eorImm 0xFF, []) ∧ decode [0b00101100, 0b00110100, 0b00010010] = .ok (.bitAbs 0x1234, []) ∧
    decode [0b00001010] = .ok (.aslAcc, []) ∧ decode [0b01000110, 0b00010000] = .ok (.lsrZp 0x10, []) ∧
    decode [0b00110110, 0b00010000] = .ok (.rolZpX 0x10, []) ∧ decode [0b01111110, 0b00000000, 0b00010010] = .ok (.rorAbsX 0x1200, []) := by decide

theorem test_decode_branch_jump :
    decode [0b00010000, 0b10000000] = .ok (.bpl 0x80, []) ∧ decode [0b11010000, 0b11111100] = .ok (.bne 0xFC, []) ∧
    decode [0b01001100, 0b00000000, 0b00110000] = .ok (.jmpAbs 0x3000, []) ∧
    decode [0b01101100, 0b11111111, 0b00100001] = .ok (.jmpInd 0x21FF, []) := by decide

theorem test_decode_stack :
    decode [0b00100000, 0b00000000, 0b00110000] = .ok (.jsr 0x3000, []) ∧ decode [0b01100000] = .ok (.rts, []) ∧
    decode [0b01000000] = .ok (.rti, []) ∧ decode [0b00000000, 0b11101010] = .ok (.brk, [0xEA]) ∧
    decode [0b01001000] = .ok (.pha, []) ∧ decode [0b00101000] = .ok (.plp, []) := by decide

theorem test_decode_transfer_flag_nop :
    decode [0b10101010] = .ok (.tax, []) ∧ decode [0b10011010] = .ok (.txs, []) ∧ decode [0b11111000] = .ok (.sed, []) ∧
    decode [0b01111000] = .ok (.sei, []) ∧ decode [0b10111000] = .ok (.clv, []) ∧ decode [0b11101010] = .ok (.nop, []) := by decide

theorem test_decode_undocumented :
    decode [0b00000111, 0b00010000] = .ok (.sloZp 0x10, []) ∧ decode [0b11100011, 0b00010000] = .ok (.iscIndX 0x10, []) ∧
    decode [0b10010111, 0b00010000] = .ok (.saxZpY 0x10, []) ∧ decode [0b10110011, 0b01000000] = .ok (.laxIndY 0x40, []) ∧
    decode [0b00101011, 0b00000001] = .ok (.ancImm 0x2B 0x01, []) ∧ decode [0b10001011, 0b11111111] = .ok (.aneImm 0xFF, []) ∧
    decode [0b10011111, 0b11111111, 0b00010010] = .ok (.shaAbsY 0x12FF, []) ∧ decode [0b10010010] = .ok (.jam 0x92, []) ∧
    decode [0b11101011, 0b00000001] = .ok (.usbcImm 0x01, []) ∧ decode [0b00111100, 0b00000000, 0b00010010] = .ok (.nopAbsX 0x3C 0x1200, []) := by decide

/-- Too few bytes are rejected by name, and so is an opcode the table misses. -/
theorem test_decode_rejects :
    (match decode [0xA9] with | .ok _ => false | .error _ => true) = true ∧
    (match decodeWith (fun _ => none) [0xA9, 0x80] with | .ok _ => false | .error _ => true) = true := by decide

/-- The bytes of an encoding, low operand byte first (R69). -/
theorem test_encode : encode (.ldaAbsX 0x12FF) = [0xBD, 0xFF, 0x12] ∧ encode (.bne 0xFC) = [0xD0, 0xFC] ∧ encode .rti = [0x40] := by decide

/-! ## One step of every mnemonic -/

/-- The default start of the vectors: the core after reset, at 0x0200. -/
def start : Cpu := { State.reset.cpu with pc := 0x0200 }

/-- A machine with core `c` and memory `m`. -/
def place (c : Cpu) (m : Memory) : State := ⟨c, ⟨m, []⟩⟩

/-- One step takes `n` cycles and leaves what `q` asks for. -/
def ends (s : State) (n : Nat) (q : State → Bool) : Bool :=
  match step s with
  | .next t => t.cpu.cycles == n && q t
  | _ => false

/-- V41.3: `BD FF 12` LDA $12FF,X. -/
theorem test_lda : ends (place ({ start with x := 0x01 }) [(0x0200, 0xBD), (0x0201, 0xFF), (0x0202, 0x12), (0x1300, 0x42)]) 5 (fun t => t.cpu.a == 0x42 && t.cpu.p == 0x20 && t.cpu.pc == 0x0203) = true := by
  decide

/-- V41.8: `B6 F0` LDX $F0,Y. -/
theorem test_ldx : ends (place ({ start with y := 0x20 }) [(0x0010, 0x7F), (0x0200, 0xB6), (0x0201, 0xF0)]) 4 (fun t => t.cpu.x == 0x7F && t.cpu.p == 0x20 && t.cpu.pc == 0x0202) = true := by
  decide

/-- V41.9: `AC 34 12` LDY $1234. -/
theorem test_ldy : ends (place ({ start with y := 0x55 }) [(0x0200, 0xAC), (0x0201, 0x34), (0x0202, 0x12)]) 4 (fun t => t.cpu.y == 0x00 && t.cpu.p == 0x22 && t.cpu.pc == 0x0203) = true := by
  decide

/-- V41.10: `91 40` STA ($40),Y. -/
theorem test_sta : ends (place ({ start with a := 0xAB, y := 0x10 }) [(0x0040, 0xF8), (0x0041, 0x12), (0x0200, 0x91), (0x0201, 0x40)]) 6 (fun t => t.cpu.pc == 0x0202 && t.cpu.p == 0x20 && memRead t.bus.mem 0x1308 == 0xAB) = true := by
  decide

/-- V41.11: `96 FF` STX $FF,Y. -/
theorem test_stx : ends (place ({ start with x := 0x5C, y := 0x02 }) [(0x0200, 0x96), (0x0201, 0xFF)]) 4 (fun t => t.cpu.pc == 0x0202 && t.cpu.p == 0x20 && memRead t.bus.mem 0x0001 == 0x5C) = true := by
  decide

/-- V41.12: `94 80` STY $80,X. -/
theorem test_sty : ends (place ({ start with y := 0x3D, x := 0x90 }) [(0x0200, 0x94), (0x0201, 0x80)]) 4 (fun t => t.cpu.pc == 0x0202 && t.cpu.p == 0x20 && memRead t.bus.mem 0x0010 == 0x3D) = true := by
  decide

/-- V42.1: `69 50` ADC #$50. -/
theorem test_adc : ends (place ({ start with a := 0x50 }) [(0x0200, 0x69), (0x0201, 0x50)]) 2 (fun t => t.cpu.a == 0xA0 && t.cpu.p == 0xE0 && t.cpu.pc == 0x0202) = true := by
  decide

/-- V42.10: `E9 FF` SBC #$FF. -/
theorem test_sbc : ends (place ({ start with a := 0x7F, p := 0x21 }) [(0x0200, 0xE9), (0x0201, 0xFF)]) 2 (fun t => t.cpu.a == 0x80 && t.cpu.p == 0xE0 && t.cpu.pc == 0x0202) = true := by
  decide

/-- V42.13: `69 46` ADC #$46. -/
theorem test_adc_decimal : ends (place ({ start with a := 0x58, p := 0x29 }) [(0x0200, 0x69), (0x0201, 0x46)]) 2 (fun t => t.cpu.a == 0x05 && t.cpu.p == 0xE9 && t.cpu.pc == 0x0202) = true := by
  decide

/-- V42.17: `E9 01` SBC #$01. -/
theorem test_sbc_decimal : ends (place ({ start with a := 0x00, p := 0x29 }) [(0x0200, 0xE9), (0x0201, 0x01)]) 2 (fun t => t.cpu.a == 0x99 && t.cpu.p == 0xA8 && t.cpu.pc == 0x0202) = true := by
  decide

/-- V42.21: `C9 11` CMP #$11. -/
theorem test_cmp : ends (place ({ start with a := 0x10 }) [(0x0200, 0xC9), (0x0201, 0x11)]) 2 (fun t => t.cpu.p == 0xA0 && t.cpu.pc == 0x0202) = true := by
  decide

/-- V42.24: `E0 00` CPX #$00. -/
theorem test_cpx : ends (place ({ start with x := 0x00 }) [(0x0200, 0xE0)]) 2 (fun t => t.cpu.p == 0x23 && t.cpu.pc == 0x0202) = true := by
  decide

/-- V42.25: `C4 10` CPY $10. -/
theorem test_cpy : ends (place ({ start with y := 0x01 }) [(0x0010, 0xFF), (0x0200, 0xC4), (0x0201, 0x10)]) 3 (fun t => t.cpu.p == 0x20 && t.cpu.pc == 0x0202) = true := by
  decide

/-- V42.28: `DE 34 12` DEC $1234,X. -/
theorem test_dec : ends (place ({ start with x := 0x01 }) [(0x0200, 0xDE), (0x0201, 0x34), (0x0202, 0x12)]) 7 (fun t => t.cpu.p == 0xA0 && t.cpu.pc == 0x0203 && memRead t.bus.mem 0x1235 == 0xFF) = true := by
  decide

/-- V42.29: `E8` INX. -/
theorem test_inx : ends (place ({ start with x := 0xFF }) [(0x0200, 0xE8)]) 2 (fun t => t.cpu.x == 0x00 && t.cpu.p == 0x22 && t.cpu.pc == 0x0201) = true := by
  decide

/-- V42.30: `C8` INY. -/
theorem test_iny : ends (place ({ start with y := 0x7F }) [(0x0200, 0xC8)]) 2 (fun t => t.cpu.y == 0x80 && t.cpu.p == 0xA0 && t.cpu.pc == 0x0201) = true := by
  decide

/-- V42.31: `CA` DEX. -/
theorem test_dex : ends (place ({ start with x := 0x00 }) [(0x0200, 0xCA)]) 2 (fun t => t.cpu.x == 0xFF && t.cpu.p == 0xA0 && t.cpu.pc == 0x0201) = true := by
  decide

/-- V42.32: `88` DEY. -/
theorem test_dey : ends (place ({ start with y := 0x01 }) [(0x0200, 0x88)]) 2 (fun t => t.cpu.y == 0x00 && t.cpu.p == 0x22 && t.cpu.pc == 0x0201) = true := by
  decide

/-- V42.33: `E6 10` INC $10. -/
theorem test_inc : ends (place ({ start with p := 0x21 }) [(0x0010, 0x7F), (0x0200, 0xE6), (0x0201, 0x10)]) 5 (fun t => t.cpu.p == 0xA1 && t.cpu.pc == 0x0202 && memRead t.bus.mem 0x0010 == 0x80) = true := by
  decide

/-- V43.1: `29 0F` AND #$0F. -/
theorem test_and : ends (place ({ start with a := 0xF0 }) [(0x0200, 0x29), (0x0201, 0x0F)]) 2 (fun t => t.cpu.a == 0x00 && t.cpu.p == 0x22 && t.cpu.pc == 0x0202) = true := by
  decide

/-- V43.2: `09 80` ORA #$80. -/
theorem test_ora : ends (place ({ start with a := 0x01 }) [(0x0200, 0x09), (0x0201, 0x80)]) 2 (fun t => t.cpu.a == 0x81 && t.cpu.p == 0xA0 && t.cpu.pc == 0x0202) = true := by
  decide

/-- V43.3: `49 FF` EOR #$FF. -/
theorem test_eor : ends (place ({ start with a := 0xFF }) [(0x0200, 0x49), (0x0201, 0xFF)]) 2 (fun t => t.cpu.a == 0x00 && t.cpu.p == 0x22 && t.cpu.pc == 0x0202) = true := by
  decide

/-- V43.4: `24 10` BIT $10. -/
theorem test_bit : ends (place ({ start with a := 0x00 }) [(0x0010, 0xC0), (0x0200, 0x24), (0x0201, 0x10)]) 3 (fun t => t.cpu.p == 0xE2 && t.cpu.pc == 0x0202) = true := by
  decide

/-- V43.8: `2A` ROL A. -/
theorem test_rol : ends (place ({ start with a := 0x80, p := 0x21 }) [(0x0200, 0x2A)]) 2 (fun t => t.cpu.a == 0x01 && t.cpu.p == 0x21 && t.cpu.pc == 0x0201) = true := by
  decide

/-- V43.9: `6A` ROR A. -/
theorem test_ror : ends (place ({ start with a := 0x01, p := 0x21 }) [(0x0200, 0x6A)]) 2 (fun t => t.cpu.a == 0x80 && t.cpu.p == 0xA1 && t.cpu.pc == 0x0201) = true := by
  decide

/-- V43.10: `1E 34 12` ASL $1234,X. -/
theorem test_asl : ends (place ({ start with x := 0x01 }) [(0x0200, 0x1E), (0x0201, 0x34), (0x0202, 0x12), (0x1235, 0x41)]) 7 (fun t => t.cpu.p == 0xA0 && t.cpu.pc == 0x0203 && memRead t.bus.mem 0x1235 == 0x82) = true := by
  decide

/-- V43.12: `4A` LSR A. -/
theorem test_lsr : ends (place ({ start with a := 0xFF }) [(0x0200, 0x4A)]) 2 (fun t => t.cpu.a == 0x7F && t.cpu.p == 0x21 && t.cpu.pc == 0x0201) = true := by
  decide

/-- V44.3: `D0 FC` BNE −4. -/
theorem test_bne : ends (place ({ start with p := 0x20 }) [(0x0200, 0xD0), (0x0201, 0xFC)]) 4 (fun t => t.cpu.pc == 0x01FE && t.cpu.p == 0x20) = true := by
  decide

/-- V44.4: `F0 00` BEQ +0. -/
theorem test_beq : ends (place ({ start with p := 0x22 }) [(0x0200, 0xF0)]) 3 (fun t => t.cpu.pc == 0x0202 && t.cpu.p == 0x22) = true := by
  decide

/-- V44.5: `10 80` BPL −128. -/
theorem test_bpl : ends (place ({ start with p := 0x20 }) [(0x0200, 0x10), (0x0201, 0x80)]) 4 (fun t => t.cpu.pc == 0x0182 && t.cpu.p == 0x20) = true := by
  decide

/-- V44.6: `30 7F` BMI +127. -/
theorem test_bmi : ends (place ({ start with p := 0xA0 }) [(0x0200, 0x30), (0x0201, 0x7F)]) 3 (fun t => t.cpu.pc == 0x0281 && t.cpu.p == 0xA0) = true := by
  decide

/-- V44.7: `70 02` BVS +2. -/
theorem test_bvs : ends (place ({ start with p := 0x60 }) [(0x0200, 0x70), (0x0201, 0x02)]) 3 (fun t => t.cpu.pc == 0x0204 && t.cpu.p == 0x60) = true := by
  decide

/-- V44.8: `50 02` BVC +2. -/
theorem test_bvc : ends (place ({ start with p := 0x60 }) [(0x0200, 0x50), (0x0201, 0x02)]) 2 (fun t => t.cpu.pc == 0x0202 && t.cpu.p == 0x60) = true := by
  decide

/-- V44.9: `90 02` BCC +2. -/
theorem test_bcc : ends (place ({ start with p := 0x20 }) [(0x0200, 0x90), (0x0201, 0x02)]) 3 (fun t => t.cpu.pc == 0x0204 && t.cpu.p == 0x20) = true := by
  decide

/-- V44.10: `B0 02` BCS +2. -/
theorem test_bcs : ends (place ({ start with p := 0x20 }) [(0x0200, 0xB0), (0x0201, 0x02)]) 2 (fun t => t.cpu.pc == 0x0202 && t.cpu.p == 0x20) = true := by
  decide

/-- V44.11: `4C 00 30` JMP $3000. -/
theorem test_jmp : ends (place (start) [(0x0200, 0x4C), (0x0202, 0x30)]) 3 (fun t => t.cpu.pc == 0x3000 && t.cpu.p == 0x20) = true := by
  decide

/-- V44.12: `6C FF 21` JMP ($21FF). -/
theorem test_jmp_indirect : ends (place (start) [(0x0200, 0x6C), (0x0201, 0xFF), (0x0202, 0x21), (0x2100, 0x40), (0x2200, 0x50)]) 5 (fun t => t.cpu.pc == 0x4000 && t.cpu.p == 0x20) = true := by
  decide

/-- V45.2: `08` PHP. -/
theorem test_php : ends (place ({ start with p := 0x20 }) [(0x0200, 0x08)]) 3 (fun t => t.cpu.s == 0xFE && t.cpu.pc == 0x0201 && t.cpu.p == 0x20 && memRead t.bus.mem 0x01FF == 0x30) = true := by
  decide

/-- V45.4: `28` PLP. -/
theorem test_plp : ends (place ({ start with s := 0xFE, p := 0x20 }) [(0x01FF, 0xFF), (0x0200, 0x28)]) 4 (fun t => t.cpu.p == 0xEF && t.cpu.s == 0xFF && t.cpu.pc == 0x0201) = true := by
  decide

/-- V45.5: `28` PLP. -/
theorem test_plp_break_kept : ends (place ({ start with s := 0xFE, p := 0x30 }) [(0x0200, 0x28)]) 4 (fun t => t.cpu.p == 0x30 && t.cpu.pc == 0x0201) = true := by
  decide

/-- V45.6: `48` PHA. -/
theorem test_pha : ends (place ({ start with a := 0x42, s := 0x00 }) [(0x0200, 0x48)]) 3 (fun t => t.cpu.s == 0xFF && t.cpu.pc == 0x0201 && t.cpu.p == 0x20 && memRead t.bus.mem 0x0100 == 0x42) = true := by
  decide

/-- V45.7: `68` PLA. -/
theorem test_pla : ends (place ({ start with s := 0xFF }) [(0x0200, 0x68)]) 4 (fun t => t.cpu.s == 0x00 && t.cpu.a == 0x00 && t.cpu.p == 0x22 && t.cpu.pc == 0x0201) = true := by
  decide

/-- V45.8: `20 00 30` JSR $3000. -/
theorem test_jsr : ends (place (start) [(0x0200, 0x20), (0x0202, 0x30)]) 6 (fun t => t.cpu.s == 0xFD && t.cpu.pc == 0x3000 && t.cpu.p == 0x20 && memRead t.bus.mem 0x01FF == 0x02 && memRead t.bus.mem 0x01FE == 0x02) = true := by
  decide

/-- V45.9: `60` RTS. -/
theorem test_rts : ends (place ({ start with s := 0xFD }) [(0x01FE, 0x02), (0x01FF, 0x02), (0x0200, 0x60)]) 6 (fun t => t.cpu.s == 0xFF && t.cpu.pc == 0x0203 && t.cpu.p == 0x20) = true := by
  decide

/-- V45.10: `40` RTI. -/
theorem test_rti : ends (place ({ start with s := 0xFC }) [(0x01FD, 0xC3), (0x01FE, 0x34), (0x01FF, 0x12), (0x0200, 0x40)]) 6 (fun t => t.cpu.p == 0xE3 && t.cpu.s == 0xFF && t.cpu.pc == 0x1234) = true := by
  decide

/-- V45.12: `00 EA` BRK. -/
theorem test_brk : ends (place ({ start with p := 0x29 }) [(0x0201, 0xEA), (0xFFFF, 0x30)]) 7 (fun t => t.cpu.p == 0x2D && t.cpu.pc == 0x3000 && memRead t.bus.mem 0x01FD == 0x39) = true := by
  decide

/-- V46.1: `AA` TAX. -/
theorem test_tax : ends (place ({ start with a := 0x80 }) [(0x0200, 0xAA)]) 2 (fun t => t.cpu.x == 0x80 && t.cpu.p == 0xA0 && t.cpu.pc == 0x0201) = true := by
  decide

/-- V46.2: `A8` TAY. -/
theorem test_tay : ends (place ({ start with a := 0x00, y := 0x55 }) [(0x0200, 0xA8)]) 2 (fun t => t.cpu.y == 0x00 && t.cpu.p == 0x22 && t.cpu.pc == 0x0201) = true := by
  decide

/-- V46.3: `8A` TXA. -/
theorem test_txa : ends (place ({ start with x := 0x7F }) [(0x0200, 0x8A)]) 2 (fun t => t.cpu.a == 0x7F && t.cpu.p == 0x20 && t.cpu.pc == 0x0201) = true := by
  decide

/-- V46.4: `98` TYA. -/
theorem test_tya : ends (place ({ start with y := 0xFF }) [(0x0200, 0x98)]) 2 (fun t => t.cpu.a == 0xFF && t.cpu.p == 0xA0 && t.cpu.pc == 0x0201) = true := by
  decide

/-- V46.5: `BA` TSX. -/
theorem test_tsx : ends (place ({ start with s := 0xFF }) [(0x0200, 0xBA)]) 2 (fun t => t.cpu.x == 0xFF && t.cpu.p == 0xA0 && t.cpu.pc == 0x0201) = true := by
  decide

/-- V46.6: `9A` TXS. -/
theorem test_txs : ends (place ({ start with x := 0x00 }) [(0x0200, 0x9A)]) 2 (fun t => t.cpu.s == 0x00 && t.cpu.p == 0x20 && t.cpu.pc == 0x0201) = true := by
  decide

/-- V46.7: `18` CLC. -/
theorem test_clc : ends (place ({ start with p := 0xFF }) [(0x0200, 0x18)]) 2 (fun t => t.cpu.p == 0xFE && t.cpu.pc == 0x0201) = true := by
  decide

/-- V46.8: `38` SEC. -/
theorem test_sec : ends (place ({ start with p := 0x20 }) [(0x0200, 0x38)]) 2 (fun t => t.cpu.p == 0x21 && t.cpu.pc == 0x0201) = true := by
  decide

/-- V46.9: `58` CLI. -/
theorem test_cli : ends (place ({ start with p := 0x24 }) [(0x0200, 0x58)]) 2 (fun t => t.cpu.p == 0x20 && t.cpu.pc == 0x0201) = true := by
  decide

/-- V46.10: `78` SEI. -/
theorem test_sei : ends (place ({ start with p := 0x20 }) [(0x0200, 0x78)]) 2 (fun t => t.cpu.p == 0x24 && t.cpu.pc == 0x0201) = true := by
  decide

/-- V46.11: `D8` CLD. -/
theorem test_cld : ends (place ({ start with p := 0x28 }) [(0x0200, 0xD8)]) 2 (fun t => t.cpu.p == 0x20 && t.cpu.pc == 0x0201) = true := by
  decide

/-- V46.12: `F8` SED. -/
theorem test_sed : ends (place ({ start with p := 0x20 }) [(0x0200, 0xF8)]) 2 (fun t => t.cpu.p == 0x28 && t.cpu.pc == 0x0201) = true := by
  decide

/-- V46.13: `B8` CLV. -/
theorem test_clv : ends (place ({ start with p := 0x60 }) [(0x0200, 0xB8)]) 2 (fun t => t.cpu.p == 0x20 && t.cpu.pc == 0x0201) = true := by
  decide

/-- V46.14: `EA` NOP. -/
theorem test_nop : ends (place (start) [(0x0200, 0xEA)]) 2 (fun t => t.cpu.pc == 0x0201 && t.cpu.p == 0x20) = true := by
  decide

/-- V47.1: `07 10` SLO $10. -/
theorem test_slo : ends (place ({ start with a := 0x01 }) [(0x0010, 0x81), (0x0200, 0x07), (0x0201, 0x10)]) 5 (fun t => t.cpu.a == 0x03 && t.cpu.p == 0x21 && t.cpu.pc == 0x0202 && memRead t.bus.mem 0x0010 == 0x02) = true := by
  decide

/-- V47.2: `27 10` RLA $10. -/
theorem test_rla : ends (place ({ start with a := 0xFF, p := 0x21 }) [(0x0010, 0x40), (0x0200, 0x27), (0x0201, 0x10)]) 5 (fun t => t.cpu.a == 0x81 && t.cpu.p == 0xA0 && t.cpu.pc == 0x0202 && memRead t.bus.mem 0x0010 == 0x81) = true := by
  decide

/-- V47.3: `47 10` SRE $10. -/
theorem test_sre : ends (place ({ start with a := 0x01 }) [(0x0010, 0x03), (0x0200, 0x47), (0x0201, 0x10)]) 5 (fun t => t.cpu.a == 0x00 && t.cpu.p == 0x23 && t.cpu.pc == 0x0202 && memRead t.bus.mem 0x0010 == 0x01) = true := by
  decide

/-- V47.5: `67 10` RRA $10. -/
theorem test_rra : ends (place ({ start with a := 0x19, p := 0x28 }) [(0x0010, 0x02), (0x0200, 0x67), (0x0201, 0x10)]) 5 (fun t => t.cpu.a == 0x20 && t.cpu.p == 0x28 && t.cpu.pc == 0x0202 && memRead t.bus.mem 0x0010 == 0x01) = true := by
  decide

/-- V47.6: `C7 10` DCP $10. -/
theorem test_dcp : ends (place ({ start with a := 0x10 }) [(0x0010, 0x11), (0x0200, 0xC7), (0x0201, 0x10)]) 5 (fun t => t.cpu.p == 0x23 && t.cpu.pc == 0x0202 && memRead t.bus.mem 0x0010 == 0x10) = true := by
  decide

/-- V47.8: `E7 10` ISC $10. -/
theorem test_isc : ends (place ({ start with a := 0x20, p := 0x29 }) [(0x0010, 0x09), (0x0200, 0xE7), (0x0201, 0x10)]) 5 (fun t => t.cpu.a == 0x10 && t.cpu.p == 0x29 && t.cpu.pc == 0x0202 && memRead t.bus.mem 0x0010 == 0x0A) = true := by
  decide

/-- V47.9: `87 10` SAX $10. -/
theorem test_sax : ends (place ({ start with a := 0xF0, x := 0x3C }) [(0x0200, 0x87), (0x0201, 0x10)]) 3 (fun t => t.cpu.pc == 0x0202 && t.cpu.p == 0x20 && memRead t.bus.mem 0x0010 == 0x30) = true := by
  decide

/-- V47.11: `B3 40` LAX ($40),Y. -/
theorem test_lax : ends (place ({ start with y := 0x10 }) [(0x0040, 0xF8), (0x0041, 0x12), (0x0200, 0xB3), (0x0201, 0x40)]) 6 (fun t => t.cpu.a == 0x00 && t.cpu.x == 0x00 && t.cpu.p == 0x22 && t.cpu.pc == 0x0202) = true := by
  decide

/-- V47.12: `0B 81` ANC #$81. -/
theorem test_anc : ends (place ({ start with a := 0xFF }) [(0x0200, 0x0B), (0x0201, 0x81)]) 2 (fun t => t.cpu.a == 0x81 && t.cpu.p == 0xA1 && t.cpu.pc == 0x0202) = true := by
  decide

/-- V47.14: `4B 03` ALR #$03. -/
theorem test_alr : ends (place ({ start with a := 0xFF }) [(0x0200, 0x4B), (0x0201, 0x03)]) 2 (fun t => t.cpu.a == 0x01 && t.cpu.p == 0x21 && t.cpu.pc == 0x0202) = true := by
  decide

/-- V47.16: `6B C0` ARR #$C0. -/
theorem test_arr : ends (place ({ start with a := 0xFF, p := 0x21 }) [(0x0200, 0x6B), (0x0201, 0xC0)]) 2 (fun t => t.cpu.a == 0xE0 && t.cpu.p == 0xA1 && t.cpu.pc == 0x0202) = true := by
  decide

/-- V47.17: `6B FF` ARR #$FF. -/
theorem test_arr_decimal : ends (place ({ start with a := 0xFF, p := 0x29 }) [(0x0200, 0x6B), (0x0201, 0xFF)]) 2 (fun t => t.cpu.a == 0x55 && t.cpu.p == 0xA9 && t.cpu.pc == 0x0202) = true := by
  decide

/-- V47.18: `CB 10` SBX #$10. -/
theorem test_sbx : ends (place ({ start with a := 0xFF, x := 0x30 }) [(0x0200, 0xCB), (0x0201, 0x10)]) 2 (fun t => t.cpu.x == 0x20 && t.cpu.p == 0x21 && t.cpu.pc == 0x0202) = true := by
  decide

/-- V47.21: `EB 06` SBC #$06 (USBC, decimal). -/
theorem test_usbc : ends (place ({ start with a := 0x05, p := 0x28 }) [(0x0200, 0xEB), (0x0201, 0x06)]) 2 (fun t => t.cpu.a == 0x98 && t.cpu.p == 0xA8 && t.cpu.pc == 0x0202) = true := by
  decide

/-- V47.22: `8B FF` ANE #$FF. -/
theorem test_ane : ends (place ({ start with a := 0x00, x := 0xFF }) [(0x0200, 0x8B), (0x0201, 0xFF)]) 2 (fun t => t.cpu.a == 0xEE && t.cpu.p == 0xA0 && t.cpu.pc == 0x0202) = true := by
  decide

/-- V47.24: `AB FF` LXA #$FF. -/
theorem test_lxa : ends (place ({ start with a := 0x00 }) [(0x0200, 0xAB), (0x0201, 0xFF)]) 2 (fun t => t.cpu.a == 0xEE && t.cpu.x == 0xEE && t.cpu.p == 0xA0 && t.cpu.pc == 0x0202) = true := by
  decide

/-- V47.26: `BB 34 12` LAS $1234,Y. -/
theorem test_las : ends (place ({ start with s := 0xF0, y := 0x00 }) [(0x0200, 0xBB), (0x0201, 0x34), (0x0202, 0x12), (0x1234, 0x3F)]) 4 (fun t => t.cpu.a == 0x30 && t.cpu.x == 0x30 && t.cpu.s == 0x30 && t.cpu.p == 0x20 && t.cpu.pc == 0x0203) = true := by
  decide

/-- V47.28: `9F FF 12` SHA $12FF,Y. -/
theorem test_sha : ends (place ({ start with a := 0xFF, x := 0xFF, y := 0x09 }) [(0x0200, 0x9F), (0x0201, 0xFF), (0x0202, 0x12)]) 5 (fun t => t.cpu.pc == 0x0203 && t.cpu.p == 0x20 && memRead t.bus.mem 0x1308 == 0x13) = true := by
  decide

/-- V47.31: `9C 34 12` SHY $1234,X. -/
theorem test_shy : ends (place ({ start with y := 0xFF, x := 0x00 }) [(0x0200, 0x9C), (0x0201, 0x34), (0x0202, 0x12)]) 5 (fun t => t.cpu.pc == 0x0203 && t.cpu.p == 0x20 && memRead t.bus.mem 0x1234 == 0x13) = true := by
  decide

/-- V47.32: `9E F0 02` SHX $02F0,Y. -/
theorem test_shx : ends (place ({ start with x := 0x01, y := 0x20 }) [(0x0200, 0x9E), (0x0201, 0xF0), (0x0202, 0x02)]) 5 (fun t => t.cpu.pc == 0x0203 && t.cpu.p == 0x20 && memRead t.bus.mem 0x0110 == 0x01) = true := by
  decide

/-- V47.33: `9B 34 12` TAS $1234,Y. -/
theorem test_tas : ends (place ({ start with a := 0xF0, x := 0x3F, y := 0x00 }) [(0x0200, 0x9B), (0x0201, 0x34), (0x0202, 0x12)]) 5 (fun t => t.cpu.s == 0x30 && t.cpu.pc == 0x0203 && t.cpu.p == 0x20 && memRead t.bus.mem 0x1234 == 0x10) = true := by
  decide

/-- V47.36: `1C FF 12` NOP $12FF,X. -/
theorem test_nop_absolute_x : ends (place ({ start with x := 0x01 }) [(0x0200, 0x1C), (0x0201, 0xFF), (0x0202, 0x12)]) 5 (fun t => t.cpu.pc == 0x0203 && t.cpu.p == 0x20) = true := by
  decide

/-- V47.38: `02` JAM. -/
theorem test_jam : ends (place (start) [(0x0200, 0x02)]) 1 (fun t => t.cpu.pc == 0x0201 && t.cpu.phase == .halted && t.cpu.instructions == 0) = true := by
  decide

/-! ## Interrupts, reset, halt and bus traces -/

/-- The vectors of 95_test_vectors.md section 2.8: IRQ at 0x4000, NMI at 0x5000, `EA` at 0x0200. -/
def vectors : Memory := [(0x0200, 0xEA), (0xFFFB, 0x50), (0xFFFF, 0x40)]

/-- V60.1 and trace T9. -/
theorem test_irq : ends (place { start with irq := true } vectors) 7 (fun t =>
    t.cpu.pc == 0x4000 && t.cpu.s == 0xFC && t.cpu.p == 0x24 && t.cpu.irq == false && t.cpu.instructions == 0 &&
    t.bus.log.reverse == [.read 0x0200 0xEA, .read 0x0200 0xEA, .write 0x01FF 0x02, .write 0x01FE 0x00, .write 0x01FD 0x20,
      .read 0xFFFE 0x00, .read 0xFFFF 0x40]) = true := by decide

/-- V60.2: a masked IRQ stays pending and the NOP runs. -/
theorem test_irq_masked : ends (place { start with irq := true, p := 0x24 } vectors) 2 (fun t =>
    t.cpu.pc == 0x0201 && t.cpu.irq) = true := by decide

/-- V60.3: the NMI wins and the IRQ stays pending. -/
theorem test_nmi : ends (place { start with nmi := true, irq := true } vectors) 7 (fun t =>
    t.cpu.pc == 0x5000 && t.cpu.p == 0x24 && t.cpu.nmi == false && t.cpu.irq) = true := by decide

/-- V60.6: D is kept, and pushed with bit 4 at 0. -/
theorem test_irq_decimal : ends (place { start with irq := true, p := 0x28 } vectors) 7 (fun t =>
    t.cpu.p == 0x2C && memRead t.bus.mem 0x01FD == 0x28) = true := by decide

/-- V47.39: a halted core counts a cycle and makes no bus access. -/
theorem test_halted : ends (place { start with phase := .halted, irq := true } vectors) 1 (fun t =>
    t.cpu.phase == .halted && t.cpu.irq && t.bus.log == []) = true := by decide

/-- V70.1. -/
theorem test_reset :
    (place { start with a := 0x12, x := 0x34, y := 0x56, s := 0x00, p := 0xFF, cycles := 100, irq := true } [(0xFFFD, 0x02)]).hostReset.cpu =
      start := by decide

/-- E4, the first two calls after the LDA retired: the NMI is taken at the boundary, its latch cleared at once. -/
theorem test_advance_nmi :
    (match advance (place { start with nmi := true, pc := 0x0203 } [(0x0203, 0xEA)]) with
    | .next t => t.cpu.phase == .handlingInterrupt && t.cpu.nmi == false && t.cpu.micro == 1 &&
        t.bus.log == [.read 0x0203 0xEA]
    | _ => false) = true := by decide

/-- R194, R199: cycle 1 of an instruction fetches the opcode and increments PC. -/
theorem test_advance_fetch :
    (match advance (place start [(0x0200, 0xAD)]) with
    | .next t => t.cpu.phase == .fetching && t.cpu.pc == 0x0201 && t.cpu.latches.opcode == 0xAD && t.cpu.cycles == 1
    | _ => false) = true := by decide

/-- R222: with a table that has no entry the fault names the opcode and its address, and no further cycle runs. -/
theorem test_invalid_opcode :
    let P : Params := { table := fun _ => none }
    let (r, t) := advanceOn P ramBus (place start [(0x0200, 0xAD)]).toSys
    r = .invalidOpcode 0xAD 0x0200 ∧ t.cpu.cycles = 1 ∧ advanceOn P ramBus t = (r, t) := by decide

/-- R93: with a table entry whose boundary flag is clear, a read in an indexing mode takes the same five cycles crossed or not. -/
theorem test_boundary_clear :
    let P : Params := { table := fun _ => some ⟨.lda, .absoluteX, 5, false, false, .read⟩ }
    let run := fun (x : Byte) => (stepOn P ramBus maxCycles
      (place { start with x := x } [(0x0200, 0xBD), (0x0201, 0x34), (0x0202, 0x12)]).toSys).2.1
    run 0x01 = 5 ∧ run 0xFF = 5 := by decide

/-- T1: the dummy read at the uncorrected address. -/
theorem test_trace_lda_absolute_x : ends (place { start with x := 0x01 } [(0x0200, 0xBD), (0x0201, 0xFF), (0x0202, 0x12)]) 5 (fun t =>
    t.bus.log.reverse == [.read 0x0200 0xBD, .read 0x0201 0xFF, .read 0x0202 0x12, .read 0x1200 0, .read 0x1300 0]) = true := by decide

/-- T3: the old byte is written back before the result. -/
theorem test_trace_inc : ends (place start [(0x0010, 0x7F), (0x0200, 0xE6), (0x0201, 0x10)]) 5 (fun t =>
    t.bus.log.reverse == [.read 0x0200 0xE6, .read 0x0201 0x10, .read 0x0010 0x7F, .write 0x0010 0x7F, .write 0x0010 0x80]) = true := by decide

/-- T5: JSR reads its last byte after the pushes. -/
theorem test_trace_jsr : ends (place start [(0x0200, 0x20), (0x0202, 0x30)]) 6 (fun t =>
    t.bus.log.reverse == [.read 0x0200 0x20, .read 0x0201 0x00, .read 0x01FF 0x00, .write 0x01FF 0x02, .write 0x01FE 0x02,
      .read 0x0202 0x30]) = true := by decide

/-- T7: a taken branch to another page. -/
theorem test_trace_bne : ends (place start [(0x0200, 0xD0), (0x0201, 0xFC)]) 4 (fun t =>
    t.bus.log.reverse == [.read 0x0200 0xD0, .read 0x0201 0xFC, .read 0x0202 0, .read 0x02FE 0]) = true := by decide

/-- The host's hooks: the word stored at PC runs as the first instruction after reset. -/
theorem test_withFetchWord :
    decodeTableWord 16 0x80A9 = some (.ldaImm 0x80) ∧
    (match step (State.reset.withFetchWord 16 0x80A9) with | .next t => t.cpu.a == 0x80 && t.cpu.pc == 0x0002 | _ => false) = true := by
  decide

/-! ## Witnesses: the hypotheses of the obligations can be met, clause by clause, at the ends of their ranges -/

/-- A well-formed instruction of the mnemonic, in a state with canonical memory. -/
abbrev Meets (i : Instr) (m : Mnemonic) (s : State) : Prop := i.WellFormed ∧ i.hasMnemonic m = true ∧ Memory.wf s.bus.mem = true

/-- A core with extreme registers at the end of memory, stack pointer at the bottom of page 1. -/
def edge : State := place { start with a := 0xFF, x := 0xFF, y := 0xFF, s := 0x00, p := 0xEF, pc := 0xFFFF } [(0x0000, 0xFF), (0xFFFF, 0xFF)]

theorem witness_Loads : Meets (.ldaAbsX 0xFFFF) .lda edge ∧ Meets (.ldxZpY 0xFF) .ldx edge ∧ Meets (.ldyImm 0x00) .ldy edge := by decide

theorem witness_Stores :
    Meets (.staIndY 0xFF) .sta edge ∧ Meets (.stxZpY 0xFF) .stx edge ∧ Meets (.styAbs 0xFFFF) .sty edge ∧ Meets (.saxZp 0x00) .sax edge := by
  decide

theorem witness_AddWithCarryAndSubtract :
    Meets (.adcImm 0xFF) .adc edge ∧ Meets (.sbcAbsX 0xFFFF) .sbc edge ∧ Meets (.usbcImm 0x00) .sbc State.reset := by decide

theorem witness_Compares : Meets (.cmpIndX 0xFF) .cmp edge ∧ Meets (.cpxImm 0xFF) .cpx edge ∧ Meets (.cpyAbs 0xFFFF) .cpy edge := by decide

theorem witness_IncrementAndDecrementMemory : Meets (.incAbsX 0xFFFF) .inc edge ∧ Meets (.decZp 0x00) .dec State.reset := by decide

theorem witness_IncrementAndDecrementIndex :
    Meets .inx .inx edge ∧ Meets .iny .iny edge ∧ Meets .dex .dex State.reset ∧ Meets .dey .dey State.reset := by decide

theorem witness_Transfers :
    Meets .tax .tax edge ∧ Meets .tay .tay edge ∧ Meets .txa .txa edge ∧ Meets .tya .tya edge ∧ Meets .tsx .tsx edge ∧
    Meets .txs .txs edge := by decide

theorem witness_FlagInstructions :
    Meets .clc .clc edge ∧ Meets .sec .sec State.reset ∧ Meets .cli .cli edge ∧ Meets .sei .sei State.reset ∧ Meets .cld .cld edge ∧
    Meets .sed .sed State.reset ∧ Meets .clv .clv edge := by decide

theorem witness_LogicAndBit :
    Meets (.andImm 0xFF) .and edge ∧ Meets (.oraAbsY 0xFFFF) .ora edge ∧ Meets (.eorIndY 0xFF) .eor edge ∧ Meets (.bitZp 0x00) .bit edge := by
  decide

theorem witness_Shifts :
    (Meets .aslAcc .asl edge ∧ Instr.aslAcc.mode = .accumulator) ∧ (Meets (.aslAbsX 0xFFFF) .asl edge ∧ (Instr.aslAbsX 0xFFFF).mode ≠ .accumulator) ∧
    (Meets .lsrAcc .lsr edge ∧ Instr.lsrAcc.mode = .accumulator) ∧ (Meets (.lsrZp 0xFF) .lsr edge ∧ (Instr.lsrZp 0xFF).mode ≠ .accumulator) ∧
    (Meets .rolAcc .rol edge ∧ Instr.rolAcc.mode = .accumulator) ∧ (Meets (.rolZpX 0xFF) .rol edge ∧ (Instr.rolZpX 0xFF).mode ≠ .accumulator) ∧
    (Meets .rorAcc .ror edge ∧ Instr.rorAcc.mode = .accumulator) ∧ (Meets (.rorAbs 0xFFFF) .ror edge ∧ (Instr.rorAbs 0xFFFF).mode ≠ .accumulator) := by
  decide

theorem witness_Branches :
    Meets (.bpl 0x80) .bpl edge ∧ Meets (.bmi 0x7F) .bmi edge ∧ Meets (.bvc 0x00) .bvc edge ∧ Meets (.bvs 0xFF) .bvs edge ∧
    Meets (.bcc 0x80) .bcc edge ∧ Meets (.bcs 0x7F) .bcs edge ∧ Meets (.bne 0x00) .bne edge ∧ Meets (.beq 0xFF) .beq edge := by decide

theorem witness_Pushes : Memory.wf edge.bus.mem = true ∧ edge.cpu.s = 0x00 := by decide

/-- The last clause too: the instruction lies at PC and the pushes do not hit its last byte. -/
theorem witness_JumpToSubroutine :
    let s := place start [(0x0200, 0x20), (0x0202, 0x30)]
    Memory.wf s.bus.mem = true ∧ memRead s.bus.mem (s.cpu.pc + 2) = hiByte 0x3000 ∧ s.cpu.pc + 2 ≠ stackAddr s.cpu.s ∧
    s.cpu.pc + 2 ≠ stackAddr (s.cpu.s - 1) := by decide

theorem witness_BreakEntersHandler : Memory.wf edge.bus.mem = true := by decide

theorem witness_NopsOnlyAdvance :
    Meets .nop .nop edge ∧ Meets (.nopImp 0x1A) .nop edge ∧ Meets (.nopImm 0x80 0xFF) .nop edge ∧ Meets (.nopZp 0x04 0xFF) .nop edge ∧
    Meets (.nopZpX 0xF4 0xFF) .nop edge ∧ Meets (.nopAbs 0xFFFF) .nop edge ∧ Meets (.nopAbsX 0xFC 0xFFFF) .nop edge := by decide

theorem witness_ShiftComposites :
    Meets (.sloAbsX 0xFFFF) .slo edge ∧ Meets (.rlaIndY 0xFF) .rla edge ∧ Meets (.sreIndX 0xFF) .sre edge ∧ Meets (.rraZp 0x00) .rra edge := by
  decide

theorem witness_DecrementCompareAndIncrementSubtract : Meets (.dcpIndY 0xFF) .dcp edge ∧ Meets (.iscAbsY 0xFFFF) .isc edge := by decide

theorem witness_LoadsOfSeveralRegisters : Meets (.laxZpY 0xFF) .lax edge ∧ Meets (.lasAbsY 0xFFFF) .las edge := by decide

theorem witness_ImmediateComposites :
    Meets (.ancImm 0x0B 0x80) .anc edge ∧ Meets (.ancImm 0x2B 0x00) .anc edge ∧ Meets (.alrImm 0xFF) .alr edge ∧
    Meets (.sbxImm 0xFF) .sbx edge := by decide

theorem witness_RotateAndAnd :
    (Meets (.arrImm 0xFF) .arr State.reset ∧ State.reset.cpu.flag .d = false) ∧ (Meets (.arrImm 0xFF) .arr edge ∧ edge.cpu.flag .d = true) := by
  decide

theorem witness_MagicConstants : Meets (.aneImm 0xFF) .ane edge ∧ Meets (.lxaImm 0x00) .lxa edge := by decide

theorem witness_UnstableStores :
    Meets (.shaIndY 0xFF) .sha edge ∧ Meets (.shaAbsY 0xFFFF) .sha edge ∧ Meets (.shxAbsY 0x02F0) .shx edge ∧
    Meets (.shyAbsX 0x0000) .shy edge ∧ Meets (.tasAbsY 0xFFFF) .tas edge := by decide

theorem witness_JamHalts :
    Meets (.jam 0x02) .jam edge ∧ Meets (.jam 0xF2) .jam edge ∧
    (place { start with phase := .halted } []).cpu.phase = .halted ∧ (place { start with phase := .halted } []).cpu.invalid = none := by decide

theorem witness_CycleCounts : (Instr.ldaAbsX 0xFFFF).WellFormed ∧ (Instr.bne 0x80).WellFormed ∧ (Instr.jam 0x12).WellFormed := by decide

/-- A halted core, and one that is not halted and has a cycle to perform. -/
theorem witness_OneAccessPerCycle :
    start.invalid = none ∧ ({ start with phase := .halted } : Cpu).phase = .halted ∧ start.phase ≠ .halted ∧
    (advanceOn {} plainRam.recorded (⟨start, ([(0x0200, 0xEA)], [])⟩ : Sys (Memory × List BusEvent))).1 ≠ .noSuchCycle := by decide

/-- A well-formed instruction of a mode and class. -/
abbrev Shape (i : Instr) (m : Mode) (c : AccessClass) : Prop := i.WellFormed ∧ i.mode = m ∧ i.cls = c

theorem witness_ZeropageAccesses :
    Shape (.ldaZp 0xFF) .zeropage .read ∧ Shape (.staZp 0x00) .zeropage .write ∧ Shape (.incZp 0xFF) .zeropage .rmw ∧
    Shape (.ldaZpX 0xFF) .zeropageX .read ∧ Shape (.staZpX 0x00) .zeropageX .write ∧ Shape (.incZpX 0xFF) .zeropageX .rmw ∧
    Shape (.ldxZpY 0xFF) .zeropageY .read ∧ Shape (.stxZpY 0x00) .zeropageY .write := by decide

theorem witness_AbsoluteAccesses :
    Shape (.ldaAbs 0xFFFF) .absolute .read ∧ Shape (.staAbs 0x0000) .absolute .write ∧ Shape (.incAbs 0xFFFF) .absolute .rmw ∧
    Shape (.ldaAbsX 0xFFFF) .absoluteX .read ∧ Shape (.incAbsX 0x00FF) .absoluteX .rmw ∧
    Shape (.staAbsX 0x00FF) .absoluteX .write ∧
    Shape (.shyAbsX 0x00FF) .absoluteX .write ∧
    Shape (.ldaAbsY 0xFFFF) .absoluteY .read ∧ Shape (.sloAbsY 0x00FF) .absoluteY .rmw ∧
    Shape (.staAbsY 0x00FF) .absoluteY .write ∧
    Shape (.tasAbsY 0x00FF) .absoluteY .write := by decide

theorem witness_IndirectAccesses :
    Shape (.ldaIndX 0xFF) .indirectX .read ∧ Shape (.staIndX 0x00) .indirectX .write ∧ Shape (.sloIndX 0xFF) .indirectX .rmw ∧
    Shape (.ldaIndY 0xFF) .indirectY .read ∧ Shape (.sloIndY 0xFF) .indirectY .rmw ∧
    Shape (.staIndY 0xFF) .indirectY .write ∧
    Shape (.shaIndY 0xFF) .indirectY .write := by decide

theorem witness_ImpliedImmediateAndJumpAccesses :
    Shape (.ldaImm 0xFF) .immediate .read ∧ (Shape .tax .implied .control ∧ (Instr.tax.row?.map (fun r => r.cycles)) = some 2) ∧
    (Shape .rorAcc .accumulator .control ∧ (Instr.rorAcc.row?.map (fun r => r.cycles)) = some 2) ∧
    Shape (.bne 0x80) .relative .control := by decide

theorem witness_StackAccesses : Memory.wf edge.bus.mem = true := by decide

theorem witness_DecimalAddition : (IsBcd 0x99 ∧ IsBcd 0x99) ∧ (IsBcd 0x00 ∧ IsBcd 0x00) := by decide

theorem witness_DecimalSubtraction : (IsBcd 0x00 ∧ IsBcd 0x99) ∧ (IsBcd 0x99 ∧ IsBcd 0x00) := by decide

theorem witness_MemoryReadsAndWrites :
    Memory.wf [(0x0000, 0xFF), (0xFFFF, 0xFF)] = true ∧ Memory.wf [] = true ∧ ∀ a, memRead edge.bus.mem a = memRead edge.bus.mem a :=
  ⟨by decide, by decide, fun _ => rfl⟩

/-- Both ends of page 1. -/
theorem witness_StackPrimitives :
    (Memory.wf edge.bus.mem = true ∧ edge.cpu.s = 0x00) ∧ (Memory.wf State.reset.bus.mem = true ∧ State.reset.cpu.s = 0xFF) := by decide

theorem witness_DecodeOfEncode :
    (Instr.ldaAbsX 0xFFFF).WellFormed ∧ (Instr.nopAbsX 0xFC 0x0000).WellFormed ∧ Instr.brk.WellFormed ∧ (Instr.jam 0xF2).WellFormed := by
  decide

theorem witness_EncodeOfDecode : decode [0xFF, 0xFF, 0xFF, 0x00] = .ok (.iscAbsX 0xFFFF, [0x00]) ∧ decode [0x00] = .ok (.brk, []) := by decide

theorem witness_EveryOpcodeDecodes :
    decode [0xBD, 0xFF, 0xFF] = .ok (.ldaAbsX 0xFFFF, []) ∧ decode [0xBD, 0x00, 0x00, 0x01] = .ok (.ldaAbsX 0x0000, [0x01]) := by decide

/-- An entry with the flag, and an indexed entry without it. -/
theorem witness_TableIsConsistent :
    (opcodeTable 0xBD).map (fun r => r.boundary) = some true ∧
    (opcodeTable 0x9D).map (fun r => (r.mode, r.boundary)) = some (.absoluteX, false) := by decide

/-- At the end of memory, with an IRQ pending and masked. -/
theorem witness_StepRunsDecodedInstruction :
    let s := { edge with cpu := { edge.cpu with irq := true } }
    s.cpu.phase = .idle ∧ s.cpu.invalid = none ∧ s.cpu.nmi = false ∧ (s.cpu.irq = true → s.cpu.flag .i = true) ∧
    decode [memRead s.bus.mem s.cpu.pc, memRead s.bus.mem (s.cpu.pc + 1), memRead s.bus.mem (s.cpu.pc + 2)] = .ok (.iscAbsX 0x00FF, []) := by
  decide

theorem witness_InterruptEntry :
    let s := place { start with nmi := true, irq := true } vectors
    let s' := place { start with irq := true } vectors
    (s.cpu.phase = .idle ∧ s.cpu.invalid = none ∧ Memory.wf s.bus.mem = true ∧ s.cpu.nmi = true) ∧
    (s'.cpu.phase = .idle ∧ s'.cpu.invalid = none ∧ Memory.wf s'.bus.mem = true ∧ s'.cpu.nmi = false ∧ s'.cpu.irq = true ∧
      s'.cpu.flag .i = false) := by decide

theorem witness_ResetIsSound : Memory.wf edge.bus.mem = true := by decide

/-- LDA absolute,X after its third cycle. -/
def midLoad : State :=
  place { start with
    pc := 0x0203, phase := .resolvingAddress, micro := 3
    latches := { opcode := 0xBD, b1 := 0xFF, b2 := 0x12, ea0 := 0x1200, ea := 0x1300, crossed := true } }
    [(0x0200, 0xBD), (0x0201, 0xFF), (0x0202, 0x12)]

/-- An interrupt sequence after its sixth cycle. -/
def midInterrupt : State := place { start with phase := .handlingInterrupt, micro := 6, latches := { vector := 0xFFFA } } vectors

/-- Sound states of every kind: at rest, in an instruction, in an interrupt sequence, halted; the step of each answers a next state. -/
theorem witness_StepKeepsSound :
    (edge.Sound ∧ ∃ t, step edge = .next t) ∧ (midLoad.Sound ∧ ∃ t, step midLoad = .next t) ∧
    (midInterrupt.Sound ∧ ∃ t, step midInterrupt = .next t) ∧
    ((place { start with phase := .halted } []).Sound ∧ ∃ t, step (place { start with phase := .halted } []) = .next t) :=
  ⟨⟨by decide, _, rfl⟩, ⟨by decide, _, rfl⟩, ⟨by decide, _, rfl⟩, ⟨by decide, _, rfl⟩⟩

theorem witness_AdvanceKeepsSound :
    edge.Sound ∧ midLoad.Sound ∧ midInterrupt.Sound ∧ (place { start with phase := .halted } []).Sound :=
  ⟨by decide, by decide, by decide, by decide⟩

theorem witness_StepIsRepeatedAdvance : edge.Sound ∧ midLoad.Sound ∧ midInterrupt.Sound ∧ State.reset.Sound :=
  ⟨by decide, by decide, by decide, by decide⟩

theorem witness_SoundStepsComplete : edge.Sound ∧ midLoad.Sound ∧ midInterrupt.Sound ∧ State.reset.Sound :=
  ⟨by decide, by decide, by decide, by decide⟩

theorem witness_FlagWriters : (Instr.adcImm 0xFF).WellFormed ∧ edge.cpu.flag .u = true ∧ ∃ t, exec (.adcImm 0xFF) edge = .next t :=
  ⟨by decide, by decide, _, rfl⟩

theorem witness_RegisterWriters : (Instr.aslAcc).WellFormed ∧ ∃ t, exec .aslAcc edge = .next t := ⟨by decide, _, rfl⟩

theorem witness_BreakBitIsInvisible : Instr.php.WellFormed ∧ ∃ t, exec .php edge = .next t := ⟨by decide, _, rfl⟩

/-- Two machines with different counters, and a step of the first. -/
theorem witness_CountersAreInvisible :
    let s := place { start with cycles := 3 } vectors
    let s' := place { start with instructions := 7 } vectors
    s.AtBoundary ∧ SameButCounters s s' ∧ ∃ t, step s = .next t := ⟨by decide, ⟨rfl, rfl⟩, _, rfl⟩

theorem witness_PushThenPull : Memory.wf edge.bus.mem = true ∧ edge.cpu.flag .u = true := by decide

theorem witness_InvalidOpcodeFreezes :
    let P : Params := { table := fun _ => none }
    start.phase = .idle ∧ start.invalid = none ∧ start.boundaryEvent = none ∧
    P.table (plainRam.peek [] start.pc).1 = none := by decide

theorem witness_HostWritesAndLines :
    start.phase = .idle ∧ start.invalid = none ∧ midLoad.cpu.phase ≠ .idle ∧ midLoad.cpu.phase ≠ .handlingInterrupt ∧
    midInterrupt.cpu.phase ≠ .idle ∧ (place { start with phase := .halted } []).cpu.phase ≠ .idle := by
  decide

end Sys2Proof.Tests
end

section
/-! PROOFS. The stack primitives (R23, R58): where a push writes and a pull reads, which accesses they make, what the memory
reads as after a push, and how both wrap in page 1. -/

namespace Sys2Proof.Machine

/-- A stack address lies in page 1 (R23). -/
theorem stackAddr_toNat (sp : Byte) : (stackAddr sp).toNat = 0x100 + sp.toNat := by simp [stackAddr, mkWord_toNat, Config.stackPage]

section
variable (s : State)

theorem push_accessed (v : Byte) : Accessed s (s.push v) [.write (stackAddr s.cpu.s) v] := by simp [Accessed]

theorem pull_accessed : Accessed s s.pull.2 [rd s (stackAddr (s.cpu.s + 1))] := by simp [Accessed, rd]

variable {s} (wf : Memory.wf s.bus.mem = true)
include wf

theorem memRead_push_same (v : Byte) : memRead (s.push v).bus.mem (stackAddr s.cpu.s) = v := by simp [wf]

theorem memRead_push_ne (v : Byte) {b : Word} (h : b ≠ stackAddr s.cpu.s) :
    memRead (s.push v).bus.mem b = memRead s.bus.mem b := by
  rw [push_mem, memRead_memWrite_ne wf h.symm]

end

/-- A push at the bottom of page 1 wraps to its top (R58). -/
theorem push_wraps {s : State} (v : Byte) (h : s.cpu.s = 0x00) : stackAddr s.cpu.s = 0x0100 ∧ (s.push v).cpu.s = 0xFF := by
  constructor
  · rw [h]; decide
  · simp [h]

/-- A pull at the top of page 1 wraps to its bottom (R58). -/
theorem pull_wraps {s : State} (h : s.cpu.s = 0xFF) : stackAddr (s.cpu.s + 1) = 0x0100 ∧ s.pull.2.cpu.s = 0x00 := by
  constructor
  · rw [h]; decide
  · simp [h]

/-- Settles O38: a push and a pull are one bus cycle each at a page-1 address, and S wraps at both ends. -/
theorem stackPrimitives : Obligations.StackPrimitives := fun s v wf =>
  ⟨stackAddr_toNat _, push_cpu s v, push_accessed s v, memRead_push_same wf v, fun _ => memRead_push_ne wf v, push_wraps v,
    pull_value s, pull_cpu s, pull_accessed s, pull_mem s, pull_wraps⟩

end Sys2Proof.Machine
end

section
/-! PROOFS. The table's entries against their sequences (R74, R219): a well-formed entry's boundary flag and base count are what
its class and mode say, and its sequence has the base count of cycles and the conditional ones. -/

namespace Sys2Proof.Machine

/-! ## The lengths of the parts of a sequence -/

theorem addressCyclesOf_length {m : Mode} (h : hasAddress m = true) : (addressCyclesOf m).length = m.addressCycles := by
  cases m with
  | implied | accumulator | immediate | relative | indirect => cases h
  | zeropage | zeropageX | zeropageY | absolute | absoluteX | absoluteY | indirectX | indirectY => rfl

theorem readCycles_length (r : Row) : (readCycles r).length = 1 + if r.mode.indexesBase then 1 else 0 := by
  unfold readCycles
  split <;> rfl

/-- Case by case of `controlSequence`: only a sequence outside the long ones has a branch's two conditional cycles (R210). -/
theorem controlSequence_length {mn : Mnemonic} {m : Mode} (h : m = .relative → longControl mn = false) :
    (controlSequence mn m).length = mn.controlCycles m + if m = .relative then 2 else 0 := by
  fun_cases controlSequence mn m <;> simp_all [Mnemonic.controlCycles, longControl]

/-! ## What well-formedness says of an entry -/

theorem wellFormed_iff {r : Row} :
    r.wellFormed = true ↔
      r.boundary = (r.cls == .read && r.mode.indexesBase) ∧ r.modeOk = true ∧ r.cyclesOk = true := by
  simp [Row.wellFormed, Row.boundaryOk, and_assoc]

/-- A read entry that is not immediate, a write and a read-modify-write entry have an operand in memory. -/
theorem hasAddress_of_modeOk {r : Row} (ok : r.modeOk = true)
    (hc : (r.cls = .read ∧ r.mode ≠ .immediate) ∨ r.cls = .write ∨ r.cls = .rmw) : hasAddress r.mode = true := by
  cases hm : r.mode with
  | zeropage | zeropageX | zeropageY | absolute | absoluteX | absoluteY | indirectX | indirectY => rfl
  | implied | accumulator | immediate | relative | indirect =>
    obtain ⟨hc, hi⟩ | hc | hc := hc <;> simp_all [Row.modeOk]

theorem ne_relative_of_hasAddress {m : Mode} (h : hasAddress m = true) : m ≠ .relative := by
  rintro rfl
  cases h

/-- An entry of a mode that indexes a base loads or stores. -/
theorem class_of_indexesBase {r : Row} (ok : r.modeOk = true) (hi : r.mode.indexesBase = true) :
    r.cls = .read ∨ r.cls = .write ∨ r.cls = .rmw := by
  cases hc : r.cls with
  | read | write | rmw => simp
  | halt =>
    have hm : r.mode = .implied := by simpa [Row.modeOk, hc] using ok
    simp [hm, Mode.indexesBase] at hi
  | control => cases hm : r.mode <;> simp_all [Row.modeOk, Mode.indexesBase]

/-- A well-formed entry's sequence has its base count of cycles and the conditional ones: the correction where the boundary flag
is set (R205, R208), the two of a branch (R210). -/
theorem sequenceOf_length {r : Row} (w : r.wellFormed = true) (hr : r.mode = .relative → longControl r.mnemonic = false) :
    (sequenceOf r).length = r.cycles + (if r.boundary then 1 else 0) + (if r.mode = .relative then 2 else 0) := by
  obtain ⟨hb, hm, hcyc⟩ := wellFormed_iff.1 w
  cases hc : r.cls with
  | halt =>
    have hmode : r.mode = .implied := by simpa [Row.modeOk, hc] using hm
    have hcyc : r.cycles = 1 := by simpa [Row.cyclesOk, hc] using hcyc
    simp [sequenceOf, hc, hb, hmode, hcyc]
  | control =>
    have hcyc : r.cycles = r.mnemonic.controlCycles r.mode := by simpa [Row.cyclesOk, hc] using hcyc
    simp [sequenceOf, hc, hb, hcyc, controlSequence_length hr]
  | read =>
    have hcyc : r.cycles = r.mode.addressCycles + 1 := by simpa [Row.cyclesOk, AccessClass.baseCycles, hc] using hcyc
    by_cases hi : r.mode = .immediate
    · simp [sequenceOf, hc, hb, hcyc, hi, Mode.addressCycles, Mode.indexesBase]
    · have ha := hasAddress_of_modeOk hm (.inl ⟨hc, hi⟩)
      simp [sequenceOf, hc, hb, hcyc, hi, addressCyclesOf_length ha, readCycles_length, ne_relative_of_hasAddress ha, Nat.add_assoc]
  | write | rmw =>
    have hcyc : r.cycles = r.cls.baseCycles r.mode := by simpa [Row.cyclesOk, hc] using hcyc
    have ha := hasAddress_of_modeOk hm (.inr (by simp [hc]))
    simp [sequenceOf, hc, hb, hcyc, AccessClass.baseCycles, addressCyclesOf_length ha, ne_relative_of_hasAddress ha,
      apply_ite List.length]

/-! ## The core's own map -/

set_option maxRecDepth 20000 in
/-- Each of the 256 entries: present, well-formed, flagged as listed, and a relative one is a branch. -/
theorem opcodeTable_entries :
    ∀ op : Byte, ((opcodeTable op).any fun r => r.wellFormed && (r.boundary == boundaryOpcodes.contains op) &&
      (r.mode != .relative || !longControl r.mnemonic)) = true := by
  decide

theorem opcodeTable_entry (op : Byte) :
    ∃ r, opcodeTable op = some r ∧ r.wellFormed = true ∧ r.boundary = boundaryOpcodes.contains op ∧
      (r.mode = .relative → longControl r.mnemonic = false) := by
  obtain ⟨r, hr, h⟩ := (Option.any_eq_true _ _).1 (opcodeTable_entries op)
  simp only [Bool.and_eq_true, beq_iff_eq, Bool.or_eq_true, bne_iff_ne, ne_eq, Bool.not_eq_true', ← imp_iff_not_or, and_assoc] at h
  exact ⟨r, hr, h⟩

set_option maxRecDepth 20000 in
theorem illegal_count :
    ((List.range 256).filter fun n => (opcodeTable (BitVec.ofNat 8 n)).any fun r => r.illegal).length = 105 := by
  decide

/-- Settles O45: every entry of the map is well-formed and flagged as listed (by evaluation); its class and the length of its
sequence follow from well-formedness. -/
theorem tableIsConsistent : Obligations.TableIsConsistent := by
  refine ⟨fun op => ?_, by decide, illegal_count⟩
  obtain ⟨r, hr, w, hlisted, hbranch⟩ := opcodeTable_entry op
  obtain ⟨hb, hm, -⟩ := wellFormed_iff.1 w
  refine ⟨r, hr, w, hlisted, fun hset => ?_, fun hmode hclear => ?_, (sequenceOf_length w hbranch).symm⟩
  · rw [hb, Bool.and_eq_true, beq_iff_eq] at hset
    exact hset.1
  · have hi : r.mode.indexesBase = true := by rcases hmode with h | h | h <;> rw [h] <;> rfl
    have hread : r.cls ≠ .read := fun hc => by simp [hb, hc, hi] at hclear
    exact (class_of_indexesBase hm hi).resolve_left hread

end Sys2Proof.Machine
end

section
/-! PROOFS. The address arithmetic of the resolver (R84 to R96) as integers: what each operand form's address counts to, where the
bytes of its pointer are, and what the parts of an indexed base have to do with the page it started in. -/

namespace Sys2Proof.Machine

/-! ## Zero page, branches and pointers -/

/-- An index in page 0 wraps there (R87). -/
theorem zpIndexed_toNat (b i : Byte) : (zpIndexed b i).toNat = (b.toNat + i.toNat) % 256 := by
  rw [zpIndexed, zeroPage_toNat, BitVec.toNat_add]

/-- A branch target wraps around the address space in both directions (R85). -/
theorem branchTarget_toNat (pcNext : Word) (off : Byte) :
    ((branchTarget pcNext off).toNat : Int) = ((pcNext.toNat : Int) + off.toInt) % 65536 := by
  have ext : ((signExtend off).toNat : Int) = off.toInt % 65536 := by
    rw [signExtend, BitVec.signExtend, BitVec.toNat_ofInt]
    omega
  rw [branchTarget, BitVec.toNat_add]
  omega

/-- A branch at PC counts from the instruction after it (R85). -/
theorem branchTarget_next_toNat (pc : Word) (off : Byte) :
    ((branchTarget (pc + 2) off).toNat : Int) = ((pc.toNat : Int) + 2 + off.toInt) % 65536 := by
  have next : (pc + 2).toNat = (pc.toNat + 2) % 65536 := BitVec.toNat_add pc 2
  rw [branchTarget_toNat, next]
  omega

theorem zeroPage_eq_ofNat (b : Byte) : zeroPage b = BitVec.ofNat 16 b.toNat := by
  rw [← zeroPage_toNat, BitVec.ofNat_toNat, BitVec.setWidth_eq]

/-- The address after `b` in page 0 wraps there (R95). -/
theorem zeroPage_succ_eq_ofNat (b : Byte) : zeroPage (b + 1) = BitVec.ofNat 16 ((b.toNat + 1) % 256) := by
  rw [zeroPage_eq_ofNat, BitVec.toNat_add]
  rfl

theorem mkWord_eq_ofNat (h l : Byte) : mkWord h l = BitVec.ofNat 16 (h.toNat * 256 + l.toNat) := by
  rw [← mkWord_toNat, BitVec.ofNat_toNat, BitVec.setWidth_eq]

/-- The high byte of a pointer is read in the page of its low byte (R94). -/
theorem samePageNext_eq_ofNat (h l : Byte) :
    samePageNext (mkWord h l) = BitVec.ofNat 16 (h.toNat * 256 + (l.toNat + 1) % 256) := by
  rw [samePageNext, hiByte_mkWord, loByte_mkWord, mkWord_eq_ofNat, BitVec.toNat_add]
  rfl

/-! ## An index on a base (R90 to R92) -/

theorem baseIndexed_toNat (base : Word) (i : Byte) : (baseIndexed base i).toNat = (base.toNat + i.toNat) % 65536 := by
  rw [baseIndexed, BitVec.toNat_add, zeroPage_toNat]

theorem pageCrossed_iff (base : Word) (i : Byte) : pageCrossed base i = true ↔ (loByte base).toNat + i.toNat > 255 := by
  rw [pageCrossed, decide_eq_true_eq]

/-- The uncorrected address stays in the page of the base. -/
theorem hiByte_uncorrected (base : Word) (i : Byte) : hiByte (uncorrected base i) = hiByte base := hiByte_mkWord _ _

/-- The correction is to the high byte alone. -/
theorem loByte_uncorrected (base : Word) (i : Byte) : loByte (uncorrected base i) = loByte (baseIndexed base i) := by
  apply BitVec.eq_of_toNat_eq
  rw [uncorrected, loByte_mkWord, BitVec.toNat_add, loByte_toNat, loByte_toNat, baseIndexed_toNat]
  omega

/-- The page is crossed exactly when the high byte changes: a carry out of the low byte adds 1 to it, modulo 256. -/
theorem pageCrossed_iff_hiByte_ne (base : Word) (i : Byte) :
    pageCrossed base i = true ↔ hiByte (baseIndexed base i) ≠ hiByte base := by
  have hb := base.isLt
  have hi := i.isLt
  rw [pageCrossed_iff, ne_eq, ← BitVec.toNat_inj, hiByte_toNat, hiByte_toNat, baseIndexed_toNat, loByte_toNat]
  omega

/-- What an index `i` on the base `h:l` gives: the address, the crossing and the uncorrected address. -/
theorem indexed_rules (h l i : Byte) :
    (baseIndexed (mkWord h l) i).toNat = (h.toNat * 256 + l.toNat + i.toNat) % 65536 ∧
      (pageCrossed (mkWord h l) i = true ↔ l.toNat + i.toNat > 255) ∧
      (pageCrossed (mkWord h l) i = true ↔ hiByte (baseIndexed (mkWord h l) i) ≠ h) ∧
      hiByte (uncorrected (mkWord h l) i) = h ∧
      loByte (uncorrected (mkWord h l) i) = loByte (baseIndexed (mkWord h l) i) ∧
      (pageCrossed (mkWord h l) i = false → uncorrected (mkWord h l) i = baseIndexed (mkWord h l) i) := by
  have changed := pageCrossed_iff_hiByte_ne (mkWord h l) i
  have carry := pageCrossed_iff (mkWord h l) i
  rw [hiByte_mkWord] at changed
  rw [loByte_mkWord] at carry
  have page : hiByte (uncorrected (mkWord h l) i) = h := by rw [hiByte_uncorrected, hiByte_mkWord]
  exact ⟨by rw [baseIndexed_toNat, mkWord_toNat], carry, changed, page, loByte_uncorrected _ _, uncorrected_eq⟩

/-! ## The pointers in memory (R94 to R96) -/

section
variable (m : Memory)

/-- The target of an indirect jump through `h:l`. -/
theorem jmpPointer_toNat (h l : Byte) :
    (jmpPointer m (mkWord h l)).toNat =
      (memRead m (BitVec.ofNat 16 (h.toNat * 256 + l.toNat))).toNat +
        256 * (memRead m (BitVec.ofNat 16 (h.toNat * 256 + (l.toNat + 1) % 256))).toNat := by
  rw [jmpPointer, mkWord_toNat, samePageNext_eq_ofNat, mkWord_eq_ofNat]
  omega

/-- The pointer at `z` has its low byte there and its high byte at `z + 1`, both in page 0. -/
theorem zpPointer_eq (z : Byte) :
    zpPointer m z =
      mkWord (memRead m (BitVec.ofNat 16 ((z.toNat + 1) % 256))) (memRead m (BitVec.ofNat 16 z.toNat)) := by
  rw [← zeroPage_eq_ofNat, ← zeroPage_succ_eq_ofNat]
  rfl

/-- The pointer at an indexed page-0 address. -/
theorem zpPointer_add_toNat (b i : Byte) :
    (zpPointer m (b + i)).toNat =
      (memRead m (BitVec.ofNat 16 ((b.toNat + i.toNat) % 256))).toNat +
        256 * (memRead m (BitVec.ofNat 16 ((b.toNat + i.toNat + 1) % 256))).toNat := by
  have sum : (b + i).toNat = (b.toNat + i.toNat) % 256 := BitVec.toNat_add b i
  rw [zpPointer_eq, mkWord_toNat, sum, Nat.mod_add_mod]
  omega

end

/-! ## The resolver -/

/-- A pointer in page 0 is indexed like any other base (R96). -/
theorem resolve_indirectY (b1 b2 : Byte) (s : State) :
    resolve .indirectY b1 b2 s =
      .indexed (mkWord (memRead s.bus.mem (BitVec.ofNat 16 ((b1.toNat + 1) % 256)))
        (memRead s.bus.mem (BitVec.ofNat 16 b1.toNat))) s.cpu.y :=
  congrArg (Resolved.indexed · s.cpu.y) (zpPointer_eq s.bus.mem b1)

/-- Settles O40: the resolver's address of each mode is the sum its own lemma gives. -/
theorem resolverRules : Obligations.ResolverRules := by
  intro b1 b2 s mem
  refine ⟨rfl, rfl, rfl, ?relative, ?zeropage, ?zeropageX, ?zeropageY, ?absolute, ?absoluteX, ?absoluteY, ?indirect, ?indirectX,
    ?indirectY⟩
  case relative => exact ⟨_, rfl, branchTarget_next_toNat s.cpu.pc b1⟩
  case zeropage => exact ⟨_, rfl, zeroPage_toNat b1⟩
  case zeropageX => exact ⟨_, rfl, zpIndexed_toNat b1 s.cpu.x⟩
  case zeropageY => exact ⟨_, rfl, zpIndexed_toNat b1 s.cpu.y⟩
  case absolute => exact ⟨_, rfl, mkWord_toNat b2 b1⟩
  case absoluteX => exact ⟨_, _, _, rfl, indexed_rules b2 b1 s.cpu.x⟩
  case absoluteY => exact ⟨_, _, _, rfl, indexed_rules b2 b1 s.cpu.y⟩
  case indirect => exact ⟨_, rfl, jmpPointer_toNat s.bus.mem b2 b1⟩
  case indirectX => exact ⟨_, rfl, zpPointer_add_toNat s.bus.mem b1 s.cpu.x⟩
  case indirectY =>
    obtain ⟨ea, carry, changed, page, low, same⟩ :=
      indexed_rules (memRead s.bus.mem (BitVec.ofNat 16 ((b1.toNat + 1) % 256))) (memRead s.bus.mem (BitVec.ofNat 16 b1.toNat))
        s.cpu.y
    rw [Nat.add_comm (_ * 256), Nat.mul_comm _ 256] at ea
    rw [ne_eq, ← BitVec.toNat_inj] at changed
    exact ⟨_, _, _, resolve_indirectY b1 b2 s, ea, carry, changed, congrArg BitVec.toNat page, low, same⟩

end Sys2Proof.Machine
end

section
/-! PROOFS. Loads and stores (R99 to R104, R173): the effect of each load and store in the claims' terms, which the lemmas of
the read and the write class then turn into the statement about `exec`. The encodings are read off the table. -/

namespace Sys2Proof.Machine

/-! ## Effects -/

/-- `setNZ` is the two flag writes of R15. -/
theorem setNZ_eq_setFlags (v : Byte) (c : Cpu) : c.setNZ v = { c with p := setFlags c.p (nz v) } := rfl

section
variable (m : Byte) (c : Cpu)

theorem readEffect_lda : readEffect {} .lda m c = { c with a := m, p := setFlags c.p (nz m) } :=
  setNZ_eq_setFlags m { c with a := m }

theorem readEffect_ldx : readEffect {} .ldx m c = { c with x := m, p := setFlags c.p (nz m) } :=
  setNZ_eq_setFlags m { c with x := m }

theorem readEffect_ldy : readEffect {} .ldy m c = { c with y := m, p := setFlags c.p (nz m) } :=
  setNZ_eq_setFlags m { c with y := m }

theorem writeEffect_sta : writeEffect .sta c = c.a := rfl
theorem writeEffect_stx : writeEffect .stx c = c.x := rfl
theorem writeEffect_sty : writeEffect .sty c = c.y := rfl
theorem writeEffect_sax : writeEffect .sax c = c.a &&& c.x := rfl

end

/-! ## The obligations -/

set_option maxRecDepth 20000 in
/-- Settles O1: a load is of the read class, and its effect puts the operand in the register and sets N and Z. -/
theorem loads : Obligations.Loads := by
  refine ⟨by decide, by decide, by decide, fun i s wf => ⟨fun lda => ?_, fun ldx => ?_, fun ldy => ?_⟩⟩
  · rw [← readEffect_lda]
    exact run_read wf lda rfl s
  · rw [← readEffect_ldx]
    exact run_read wf ldx rfl s
  · rw [← readEffect_ldy]
    exact run_read wf ldy rfl s

set_option maxRecDepth 20000 in
/-- Settles O2: a store is of the write class and none of the unstable ones, and the byte of its effect is a register or A & X. -/
theorem stores : Obligations.Stores := by
  refine ⟨by decide, by decide, by decide, by decide, fun i s wf mem =>
    ⟨fun sta => ?_, fun stx => ?_, fun sty => ?_, fun sax => ?_⟩⟩
  · rw [← writeEffect_sta s.cpu]
    exact run_write wf sta rfl rfl mem
  · rw [← writeEffect_stx s.cpu]
    exact run_write wf stx rfl rfl mem
  · rw [← writeEffect_sty s.cpu]
    exact run_write wf sty rfl rfl mem
  · rw [← writeEffect_sax s.cpu]
    exact run_write wf sax rfl rfl mem

end Sys2Proof.Machine
end

section
/-! PROOFS. Arithmetic (R105 to R120): the effect of each mnemonic in the claims' terms, and the run of its access class by
mnemonic, for the read-modify-write class and the two-cycle implied instructions too. The encodings are read off the table. -/

namespace Sys2Proof.Machine

/-! ## Effects -/

/-- N of a comparison: bit 7 of the integer difference reduced to a byte is bit 7 of the machine's difference (R109). -/
theorem ofInt_toNat_sub_toNat (r m : Byte) : BitVec.ofInt 8 ((r.toNat : Int) - m.toNat) = r - m := by
  apply BitVec.eq_of_toNat_eq
  rw [BitVec.toNat_ofInt, BitVec.toNat_sub]
  omega

/-- `Compare(r, m)` is the three flag writes of R109. -/
theorem compare_eq_setFlags (r m : Byte) (c : Cpu) : c.compare r m = { c with p := setFlags c.p (compareFlags r m) } := by
  rw [compareFlags, ofInt_toNat_sub_toNat]
  rfl

/-- An ALU result goes to A and to four flags. -/
theorem takeAlu_eq_setFlags (r : AluResult) (c : Cpu) :
    c.takeAlu r = { c with a := r.value, p := setFlags c.p (aluFlags r) } := rfl

section
variable (m : Byte) (c : Cpu)

theorem readEffect_adc :
    readEffect {} .adc m c = { c with a := (c.addResult m).value, p := setFlags c.p (aluFlags (c.addResult m)) } :=
  takeAlu_eq_setFlags (c.addResult m) c

theorem readEffect_sbc :
    readEffect {} .sbc m c = { c with a := (c.subResult m).value, p := setFlags c.p (aluFlags (c.subResult m)) } :=
  takeAlu_eq_setFlags (c.subResult m) c

theorem readEffect_cmp : readEffect {} .cmp m c = { c with p := setFlags c.p (compareFlags c.a m) } := compare_eq_setFlags c.a m c
theorem readEffect_cpx : readEffect {} .cpx m c = { c with p := setFlags c.p (compareFlags c.x m) } := compare_eq_setFlags c.x m c
theorem readEffect_cpy : readEffect {} .cpy m c = { c with p := setFlags c.p (compareFlags c.y m) } := compare_eq_setFlags c.y m c

theorem modifyEffect_inc : modifyEffect .inc m c = (m + 1, { c with p := setFlags c.p (nz (m + 1)) }) :=
  congrArg (Prod.mk (m + 1)) (setNZ_eq_setFlags (m + 1) c)

theorem modifyEffect_dec : modifyEffect .dec m c = (m - 1, { c with p := setFlags c.p (nz (m - 1)) }) :=
  congrArg (Prod.mk (m - 1)) (setNZ_eq_setFlags (m - 1) c)

end

section
variable (c : Cpu)

theorem impliedEffect_inx : impliedEffect .inx c = { c with x := c.x + 1, p := setFlags c.p (nz (c.x + 1)) } :=
  setNZ_eq_setFlags (c.x + 1) { c with x := c.x + 1 }

theorem impliedEffect_iny : impliedEffect .iny c = { c with y := c.y + 1, p := setFlags c.p (nz (c.y + 1)) } :=
  setNZ_eq_setFlags (c.y + 1) { c with y := c.y + 1 }

theorem impliedEffect_dex : impliedEffect .dex c = { c with x := c.x - 1, p := setFlags c.p (nz (c.x - 1)) } :=
  setNZ_eq_setFlags (c.x - 1) { c with x := c.x - 1 }

theorem impliedEffect_dey : impliedEffect .dey c = { c with y := c.y - 1, p := setFlags c.p (nz (c.y - 1)) } :=
  setNZ_eq_setFlags (c.y - 1) { c with y := c.y - 1 }

end

/-! ## The classes by mnemonic -/

/-- A mnemonic with read-modify-write entries only (R209), in canonical memory. -/
theorem run_modify {i : Instr} (wf : i.WellFormed) {m : Mnemonic} (hm : i.hasMnemonic m = true) (hc : classOf m = [.rmw])
    {s : State} (mem : Memory.wf s.bus.mem = true) :
    ModifiesOperand i s (fun b => (modifyEffect m b s.cpu).1) (fun b => (modifyEffect m b s.cpu).2) := by
  obtain ⟨r, row, rfl, cls, e⟩ := run_class wf hm hc s
  exact run_rmw row cls mem e

/-- The mnemonics whose entries are all implied and of two cycles (R200). NOP is not among them: it has operand forms too. -/
def impliedOnly : Mnemonic → Bool
  | .tax | .tay | .txa | .tya | .tsx | .txs | .clc | .sec | .cli | .sei | .cld | .sed | .clv | .inx | .iny | .dex | .dey => true
  | _ => false

set_option maxRecDepth 20000 in
theorem table_impliedOnly :
    ∀ op : Byte, ((opcodeTable op).all fun r => !impliedOnly r.mnemonic ||
      (r.cls == .control && r.mode == .implied && !longControl r.mnemonic)) = true := by
  decide

/-- What the table says of the entry of such a mnemonic. -/
theorem HasRow.of_impliedOnly {i : Instr} {r : Row} (h : HasRow i r) (hi : impliedOnly r.mnemonic = true) :
    r.cls = .control ∧ r.mode = .implied ∧ longControl r.mnemonic = false := by
  have entry : opcodeTable i.opcode = some r := h.entry
  have t := table_impliedOnly i.opcode
  simpa [entry, hi, and_assoc] using t

/-- A two-cycle implied instruction changes the core by its effect and no byte of memory (R200). -/
theorem run_implied {i : Instr} (wf : i.WellFormed) {m : Mnemonic} (hm : i.hasMnemonic m = true) (hi : impliedOnly m = true)
    (s : State) : Completes i s (past i s (impliedEffect m s.cpu)) := by
  obtain ⟨r, row, e⟩ := exec_runs wf s
  obtain rfl := row.of_names hm
  obtain ⟨cls, mode, short⟩ := row.of_impliedOnly hi
  obtain ⟨cpu, mem, -⟩ := runRow_implied s row cls short (.inl mode)
  rw [mode, if_neg nofun] at cpu
  exact ⟨_, e, cpu, fun b => by rw [mem]⟩

/-! ## The obligations -/

set_option maxRecDepth 20000 in
/-- Settles O3: ADC and SBC are of the read class, and A and the four flags take the result that D selects. -/
theorem addWithCarryAndSubtract : Obligations.AddWithCarryAndSubtract := by
  refine ⟨by decide, by decide, by decide, fun i s wf => ⟨fun adc => ?_, fun sbc => ?_⟩⟩
  · have ran := run_read wf adc rfl s
    rw [readEffect_adc] at ran
    exact ran
  · have ran := run_read wf sbc rfl s
    rw [readEffect_sbc] at ran
    exact ran

set_option maxRecDepth 20000 in
/-- Settles O4: a comparison is of the read class, and its effect is three flag writes. -/
theorem compares : Obligations.Compares := by
  refine ⟨by decide, by decide, by decide, fun i s wf => ⟨fun cmp => ?_, fun cpx => ?_, fun cpy => ?_⟩⟩
  · rw [← readEffect_cmp]
    exact run_read wf cmp rfl s
  · rw [← readEffect_cpx]
    exact run_read wf cpx rfl s
  · rw [← readEffect_cpy]
    exact run_read wf cpy rfl s

set_option maxRecDepth 20000 in
/-- Settles O5: INC and DEC are of the read-modify-write class, and their result is the byte one up or down. -/
theorem incrementAndDecrementMemory : Obligations.IncrementAndDecrementMemory := by
  refine ⟨by decide, by decide, fun i s wf mem => ⟨fun inc => ?_, fun dec => ?_⟩⟩
  · simpa only [modifyEffect_inc] using run_modify wf inc rfl mem
  · simpa only [modifyEffect_dec] using run_modify wf dec rfl mem

set_option maxRecDepth 20000 in
/-- Settles O6: the four are implied and take two cycles, and their effect steps the register and sets N and Z. -/
theorem incrementAndDecrementIndex : Obligations.IncrementAndDecrementIndex := by
  refine ⟨by decide, by decide, by decide, by decide, fun i s wf =>
    ⟨fun inx => ?_, fun iny => ?_, fun dex => ?_, fun dey => ?_⟩⟩
  · rw [← impliedEffect_inx]
    exact run_implied wf inx rfl s
  · rw [← impliedEffect_iny]
    exact run_implied wf iny rfl s
  · rw [← impliedEffect_dex]
    exact run_implied wf dex rfl s
  · rw [← impliedEffect_dey]
    exact run_implied wf dey rfl s

end Sys2Proof.Machine
end

section
/-! PROOFS. Bitwise operations, shifts and rotates (R124 to R131): the effect of each mnemonic in the claims' terms, and the run of
a shift, which has an entry on the accumulator beside its read-modify-write entries. The encodings are read off the table. -/

namespace Sys2Proof.Machine

/-! ## Effects -/

/-- A shift's core is the shifted byte's three flag writes (R128 to R131). -/
theorem shifted_eq_setFlags (r : Byte × Bool) (c : Cpu) :
    c.shifted r = (r.1, { c with p := setFlags c.p ((.c, r.2) :: nz r.1) }) := rfl

section
variable (m : Byte) (c : Cpu)

theorem readEffect_and :
    readEffect {} .and m c = { c with a := c.a &&& m, p := setFlags c.p (nz (c.a &&& m)) } :=
  setNZ_eq_setFlags (c.a &&& m) { c with a := c.a &&& m }

theorem readEffect_ora :
    readEffect {} .ora m c = { c with a := c.a ||| m, p := setFlags c.p (nz (c.a ||| m)) } :=
  setNZ_eq_setFlags (c.a ||| m) { c with a := c.a ||| m }

theorem readEffect_eor :
    readEffect {} .eor m c = { c with a := c.a ^^^ m, p := setFlags c.p (nz (c.a ^^^ m)) } :=
  setNZ_eq_setFlags (c.a ^^^ m) { c with a := c.a ^^^ m }

theorem readEffect_bit :
    readEffect {} .bit m c =
      { c with p := setFlags c.p [(.z, c.a &&& m == 0), (.v, m.getLsbD 6), (.n, m.getLsbD 7)] } := rfl

theorem modifyEffect_asl : modifyEffect .asl m c = c.shifted (asl m) := rfl
theorem modifyEffect_lsr : modifyEffect .lsr m c = c.shifted (lsr m) := rfl
theorem modifyEffect_rol : modifyEffect .rol m c = c.shifted (rol m (c.flag .c)) := rfl
theorem modifyEffect_ror : modifyEffect .ror m c = c.shifted (ror m (c.flag .c)) := rfl

end

/-! ## The shifts by mnemonic -/

set_option maxRecDepth 20000 in
theorem table_shifts :
    ∀ op : Byte, ((opcodeTable op).all fun r => classOf r.mnemonic != [.control, .rmw] ||
      (r.cls == (if r.mode = .accumulator then .control else .rmw) && !longControl r.mnemonic)) = true := by
  decide

/-- A shift's entry is a two-cycle control entry on the accumulator and a read-modify-write entry in every other mode. -/
theorem HasRow.of_shift {i : Instr} {r : Row} (h : HasRow i r) (hc : classOf r.mnemonic = [.control, .rmw]) :
    r.cls = (if r.mode = .accumulator then .control else .rmw) ∧ longControl r.mnemonic = false := by
  have entry : opcodeTable i.opcode = some r := h.entry
  have t := table_shifts i.opcode
  simpa [entry, hc] using t

/-- A shift (R128 to R131) on A, or on the byte at the resolver's address in canonical memory, where `f` gives from the byte the
shifted byte and the carry out. -/
theorem run_shift {i : Instr} (wf : i.WellFormed) {m : Mnemonic} (hm : i.hasMnemonic m = true)
    (hc : classOf m = [.control, .rmw]) {s : State} (mem : Memory.wf s.bus.mem = true) {f : Byte → Byte × Bool}
    (hf : ∀ b, modifyEffect m b s.cpu = s.cpu.shifted (f b)) :
    (i.mode = .accumulator → Completes i s (past i s { s.cpu with
      a := (f s.cpu.a).1, p := setFlags s.cpu.p ((.c, (f s.cpu.a).2) :: nz (f s.cpu.a).1) })) ∧
    (i.mode ≠ .accumulator → ModifiesOperand i s (fun b => (f b).1) (fun b => { s.cpu with
      p := setFlags s.cpu.p ((.c, (f b).2) :: nz (f b).1) })) := by
  obtain ⟨r, row, e⟩ := exec_runs wf s
  obtain rfl := row.of_names hm
  obtain ⟨cls, short⟩ := row.of_shift hc
  rw [row.mode]
  refine ⟨fun acc => ?_, fun operand => ?_⟩
  · rw [if_pos acc] at cls
    obtain ⟨cpu, unchanged, -⟩ := runRow_implied s row cls short (.inr acc)
    rw [if_pos acc, onAccumulator, hf, shifted_eq_setFlags] at cpu
    exact ⟨_, e, cpu, fun b => by rw [unchanged]⟩
  · rw [if_neg operand] at cls
    simpa only [hf, shifted_eq_setFlags] using run_rmw row cls mem e

/-! ## The obligations -/

set_option maxRecDepth 20000 in
/-- Settles O10: `run_shift` at each shift's byte function, for the rotates with the carry before. -/
theorem shifts : Obligations.Shifts := by
  refine ⟨by decide, by decide, by decide, by decide, fun i s wf mem =>
    ⟨fun asl => ?_, fun lsr => ?_, fun rol => ?_, fun ror => ?_⟩⟩
  · exact run_shift wf asl rfl mem fun b => modifyEffect_asl b s.cpu
  · exact run_shift wf lsr rfl mem fun b => modifyEffect_lsr b s.cpu
  · exact run_shift wf rol rfl mem fun b => modifyEffect_rol b s.cpu
  · exact run_shift wf ror rfl mem fun b => modifyEffect_ror b s.cpu

set_option maxRecDepth 20000 in
/-- Settles O9: the four are of the read class; AND, ORA and EOR load A with their result, and BIT is three flag writes. -/
theorem logicAndBit : Obligations.LogicAndBit := by
  refine ⟨by decide, by decide, by decide, by decide, fun i s wf =>
    ⟨fun and => ?_, fun ora => ?_, fun eor => ?_, fun bit => ?_⟩⟩
  · rw [← readEffect_and]
    exact run_read wf and rfl s
  · rw [← readEffect_ora]
    exact run_read wf ora rfl s
  · rw [← readEffect_eor]
    exact run_read wf eor rfl s
  · rw [← readEffect_bit]
    exact run_read wf bit rfl s

end Sys2Proof.Machine
end

section
/-! PROOFS. Branches and jumps (R132 to R142): what the table says of a branch's entry, the run of such an entry, and the core
that `branch` and the two jumps leave, in the claims' terms. The encodings are read off the table. -/

namespace Sys2Proof.Machine

/-! ## Branches -/

/-- The eight conditional branches (R134 to R141). -/
def isBranch : Mnemonic → Bool
  | .bpl | .bmi | .bvc | .bvs | .bcc | .bcs | .bne | .beq => true
  | _ => false

set_option maxRecDepth 20000 in
theorem table_branches :
    ∀ op : Byte, ((opcodeTable op).all fun r => !isBranch r.mnemonic ||
      (r.cls == .control && r.mode == .relative && !longControl r.mnemonic)) = true := by
  decide

/-- What the table says of the entry of a branch. -/
theorem HasRow.of_isBranch {i : Instr} {r : Row} (h : HasRow i r) (hb : isBranch r.mnemonic = true) :
    r.cls = .control ∧ r.mode = .relative ∧ longControl r.mnemonic = false := by
  have entry : opcodeTable i.opcode = some r := h.entry
  have t := table_branches i.opcode
  simpa [entry, hb, and_assoc] using t

/-- Outside the long sequences a control entry of mode relative branches on its mnemonic's condition (R132). -/
theorem runControl_relative {mn : Mnemonic} (short : longControl mn = false) (b1 b2 : Byte) (s : State) :
    runControl mn .relative b1 b2 s = branch (branchCondition mn).1 (branchCondition mn).2 b1 s := by
  cases mn with
  | jmp | jsr | rts | rti | brk | pha | php | pla | plp => cases short
  | _ => rfl

/-- An instruction that runs as `branch` with its own offset meets R132. -/
theorem branchesOn_of_exec {f : Flag} {want : Bool} {i : Instr} {s : State}
    (e : exec i s = .next (branch f want i.b1 s)) : BranchesOn f want i s := by
  refine ⟨_, e, ?_, fun b => by rw [branch_mem]⟩
  rw [branch_cpu]
  simp only [beq_iff_eq, branchTarget, signExtend, samePage]

/-- A branch by mnemonic, on its mnemonic's condition (R132). -/
theorem run_branch {i : Instr} (wf : i.WellFormed) {m : Mnemonic} (hm : i.hasMnemonic m = true) (hb : isBranch m = true)
    (s : State) : BranchesOn (branchCondition m).1 (branchCondition m).2 i s := by
  obtain ⟨r, row, e⟩ := exec_runs wf s
  obtain rfl := row.of_names hm
  obtain ⟨cls, mode, short⟩ := row.of_isBranch hb
  have run : runRow r i.b1 i.b2 s =
      branch (branchCondition r.mnemonic).1 (branchCondition r.mnemonic).2 i.b1 s := by
    simp only [runRow, cls, mode, runControl_relative short]
  exact branchesOn_of_exec (run ▸ e)

/-! ## Jumps -/

/-- JMP absolute goes to its operand (R142). -/
theorem completes_jmpAbs (w : Word) (s : State) :
    Completes (.jmpAbs w) s { s.cpu with pc := w, cycles := s.cpu.cycles + 3, instructions := s.cpu.instructions + 1 } :=
  ⟨jumpAbsolute w s, rfl, jumpAbsolute_cpu s w, fun b => by rw [jumpAbsolute_mem]⟩

/-- JMP indirect goes to the word its pointer resolves to (R94, R142). -/
theorem completes_jmpInd (w : Word) (s : State) :
    Completes (.jmpInd w) s { s.cpu with
      pc := jmpPointer s.bus.mem w, cycles := s.cpu.cycles + 5, instructions := s.cpu.instructions + 1 } :=
  ⟨jumpIndirect w s, rfl, jumpIndirect_cpu s w, fun b => by rw [jumpIndirect_mem]⟩

/-! ## The obligations -/

set_option maxRecDepth 20000 in
/-- Settles O11: a branch has a relative control entry, and `run_branch` at each mnemonic's flag and value (R134 to R141). -/
theorem branches : Obligations.Branches :=
  ⟨by decide, by decide, by decide, by decide, by decide, by decide, by decide, by decide, fun i s wf =>
    ⟨fun bpl => run_branch wf bpl rfl s, fun bmi => run_branch wf bmi rfl s,
     fun bvc => run_branch wf bvc rfl s, fun bvs => run_branch wf bvs rfl s,
     fun bcc => run_branch wf bcc rfl s, fun bcs => run_branch wf bcs rfl s,
     fun bne => run_branch wf bne rfl s, fun beq => run_branch wf beq rfl s⟩⟩

set_option maxRecDepth 20000 in
/-- Settles O12: the two forms of JMP; the pointer's word is `jmpPointer`, whose high byte is read within the pointer's page. -/
theorem jumps : Obligations.Jumps :=
  ⟨by decide, fun w s => ⟨completes_jmpAbs w s, completes_jmpInd w s⟩⟩

end Sys2Proof.Machine
end

section
/-! PROOFS. Pushes and pulls as instructions (R145 to R148): PHA and PHP run as `pushValue`, PLA and PLP as `pullValue`, and what
these two leave is the core `past` the instruction and the memory of the claims. -/

namespace Sys2Proof.Machine

/-- Past a one-byte instruction PC is one further (R24). -/
theorem past_of_length_one {i : Instr} {s : State} {n : Nat} (len : i.length = 1) (cyc : cycleCount i s = n) (c : Cpu) :
    past i s c =
      { c with pc := s.cpu.pc + 1, cycles := s.cpu.cycles + n, instructions := s.cpu.instructions + 1 } := by
  rw [past, len, cyc]
  rfl

/-! ## Pushes -/

/-- A one-byte instruction of three cycles that runs as `pushValue` stores its value, composed after the opcode's fetch and the
discarded read, in the slot at S, and S goes down by one (R58, R212). -/
theorem storesByte_of_pushValue {i : Instr} {value : Cpu → Byte} {s : State} (wf : Memory.wf s.bus.mem = true)
    (e : exec i s = .next (pushValue value s)) (len : i.length = 1) (cyc : cycleCount i s = 3) :
    StoresByte i s (past i s { s.cpu with s := s.cpu.s - 1 }) (stackAddr s.cpu.s)
      (value { s.cpu with pc := s.cpu.pc + 1, cycles := s.cpu.cycles + 2 }) := by
  refine ⟨_, e, ?core, ⟨(fetch2 s).reverse ++ s.bus.log, ?lastAccess⟩, ?slot, fun b other => ?frame⟩
  case core => rw [pushValue_cpu, past_of_length_one len cyc]
  case lastAccess => simpa [Accessed] using pushValue_log s value
  case slot => rw [pushValue_mem, memRead_memWrite_same wf]
  case frame => rw [pushValue_mem, memRead_memWrite_ne wf other.symm]

/-! ## Pulls -/

/-- An instruction that runs as `pullValue` completes with the core its effect leaves from the byte above S (R58, R212). -/
theorem completes_of_pullValue {i : Instr} {f : Byte → Cpu → Cpu} {s : State} (e : exec i s = .next (pullValue f s)) :
    Completes i s (f (memRead s.bus.mem (stackAddr (s.cpu.s + 1)))
      { s.cpu with s := s.cpu.s + 1, pc := s.cpu.pc + 1, cycles := s.cpu.cycles + 4 }).retire :=
  ⟨_, e, pullValue_cpu s f, fun b => by rw [pullValue_mem]⟩

/-- PLA loads A with the byte and sets N and Z from it (R147). -/
theorem opPla_eq_setFlags (v : Byte) (c : Cpu) : c.opPla v = { c with a := v, p := setFlags c.p (nz v) } :=
  setNZ_eq_setFlags v { c with a := v }

/-- PLP writes P whole, except that bit 4 is kept and bit 5 is 1 (R27, R148). -/
theorem opPlp_eq_setPValue (v : Byte) (c : Cpu) : c.opPlp v = { c with p := setPValue c.p v } := rfl

/-! ## The obligations -/

set_option maxRecDepth 20000 in
/-- Settles O13: both run as `pushValue`, PHA's value is A and PHP's is P with bits 4 and 5 set (R145, R146). -/
theorem pushes : Obligations.Pushes :=
  ⟨by decide, by decide, fun s wf =>
    ⟨storesByte_of_pushValue (value := Cpu.opPha) wf rfl rfl rfl,
     storesByte_of_pushValue (value := Cpu.opPhp) wf rfl rfl rfl⟩⟩

set_option maxRecDepth 20000 in
/-- Settles O14: both run as `pullValue`, and the effect of each is the core of the claim (R147; for PLP's bit 4, decision D7). -/
theorem pulls : Obligations.Pulls := by
  refine ⟨by decide, by decide, fun s => ⟨?pla, ?plp⟩⟩
  case pla =>
    have ran := completes_of_pullValue (i := .pla) (f := Cpu.opPla) (s := s) rfl
    rw [opPla_eq_setFlags] at ran
    rw [past_of_length_one (n := 4) rfl rfl]
    exact ran
  case plp =>
    have ran := completes_of_pullValue (i := .plp) (f := Cpu.opPlp) (s := s) rfl
    rw [opPlp_eq_setPValue] at ran
    rw [past_of_length_one (n := 4) rfl rfl]
    exact ran

end Sys2Proof.Machine
end

section
/-! PROOFS. Transfers, flag instructions and NOP (R153 to R166): the effect of each mnemonic in the claims' terms. Transfers and
flag instructions run as two-cycle implied instructions; NOP does too, or reads an operand and drops it. -/

namespace Sys2Proof.Machine

/-! ## Effects -/

section
variable (c : Cpu)

theorem impliedEffect_tax : impliedEffect .tax c = { c with x := c.a, p := setFlags c.p (nz c.a) } :=
  setNZ_eq_setFlags c.a { c with x := c.a }

theorem impliedEffect_tay : impliedEffect .tay c = { c with y := c.a, p := setFlags c.p (nz c.a) } :=
  setNZ_eq_setFlags c.a { c with y := c.a }

theorem impliedEffect_txa : impliedEffect .txa c = { c with a := c.x, p := setFlags c.p (nz c.x) } :=
  setNZ_eq_setFlags c.x { c with a := c.x }

theorem impliedEffect_tya : impliedEffect .tya c = { c with a := c.y, p := setFlags c.p (nz c.y) } :=
  setNZ_eq_setFlags c.y { c with a := c.y }

theorem impliedEffect_tsx : impliedEffect .tsx c = { c with x := c.s, p := setFlags c.p (nz c.s) } :=
  setNZ_eq_setFlags c.s { c with x := c.s }

theorem impliedEffect_txs : impliedEffect .txs c = { c with s := c.x } := rfl

theorem impliedEffect_clc : impliedEffect .clc c = { c with p := putFlag c.p .c false } := rfl
theorem impliedEffect_sec : impliedEffect .sec c = { c with p := putFlag c.p .c true } := rfl
theorem impliedEffect_cli : impliedEffect .cli c = { c with p := putFlag c.p .i false } := rfl
theorem impliedEffect_sei : impliedEffect .sei c = { c with p := putFlag c.p .i true } := rfl
theorem impliedEffect_cld : impliedEffect .cld c = { c with p := putFlag c.p .d false } := rfl
theorem impliedEffect_sed : impliedEffect .sed c = { c with p := putFlag c.p .d true } := rfl
theorem impliedEffect_clv : impliedEffect .clv c = { c with p := putFlag c.p .v false } := rfl

theorem impliedEffect_nop : impliedEffect .nop c = c := rfl
theorem readEffect_nop (m : Byte) : readEffect {} .nop m c = c := rfl

end

/-- A two-cycle implied instruction completes with the core that its effect is known to leave (R200). -/
theorem completes_of_impliedEffect {i : Instr} (wf : i.WellFormed) {m : Mnemonic} (hm : i.hasMnemonic m = true)
    (hi : impliedOnly m = true) {s : State} {c : Cpu} (effect : impliedEffect m s.cpu = c) :
    Completes i s (past i s c) :=
  effect ▸ run_implied wf hm hi s

/-! ## NOP (R166) -/

set_option maxRecDepth 20000 in
theorem table_nop :
    ∀ op : Byte, ((opcodeTable op).all fun r => r.mnemonic != .nop ||
      (r.cls == .control && r.mode == .implied || r.cls == .read)) = true := by
  decide

/-- A NOP is implied, or it is of the read class (decision D19). -/
theorem HasRow.of_nop {i : Instr} {r : Row} (h : HasRow i r) (nop : r.mnemonic = .nop) :
    r.cls = .control ∧ r.mode = .implied ∨ r.cls = .read := by
  have entry : opcodeTable i.opcode = some r := h.entry
  have t := table_nop i.opcode
  simpa [entry, nop] using t

/-- Whichever class a NOP is of, the effect of its class is none: what is left is the core past the instruction. -/
theorem runRow_nop {i : Instr} {r : Row} (row : HasRow i r) (nop : r.mnemonic = .nop) (s : State) :
    (runRow r i.b1 i.b2 s).cpu = past i s s.cpu ∧ (runRow r i.b1 i.b2 s).bus.mem = s.bus.mem := by
  obtain ⟨control, implied⟩ | read := row.of_nop nop
  · have short : longControl r.mnemonic = false := by rw [nop]; rfl
    obtain ⟨cpu, mem, -⟩ := runRow_implied s row control short (.inl implied)
    rw [implied, if_neg nofun, nop, impliedEffect_nop] at cpu
    exact ⟨cpu, mem⟩
  · have ran := runRow_read row read s
    rw [nop, readEffect_nop] at ran
    exact ran

/-! ## The obligations -/

set_option maxRecDepth 20000 in
/-- Settles O7: the six are implied and take two cycles; five copy a register and set N and Z from it, and TXS only copies. -/
theorem transfers : Obligations.Transfers :=
  ⟨by decide, by decide, by decide, by decide, by decide, by decide, fun _ s wf =>
    ⟨fun tax => completes_of_impliedEffect wf tax rfl (impliedEffect_tax s.cpu),
     fun tay => completes_of_impliedEffect wf tay rfl (impliedEffect_tay s.cpu),
     fun txa => completes_of_impliedEffect wf txa rfl (impliedEffect_txa s.cpu),
     fun tya => completes_of_impliedEffect wf tya rfl (impliedEffect_tya s.cpu),
     fun tsx => completes_of_impliedEffect wf tsx rfl (impliedEffect_tsx s.cpu),
     fun txs => completes_of_impliedEffect wf txs rfl (impliedEffect_txs s.cpu)⟩⟩

set_option maxRecDepth 20000 in
/-- Settles O8: the seven are implied and take two cycles, and the effect of each is one flag write. -/
theorem flagInstructions : Obligations.FlagInstructions :=
  ⟨by decide, by decide, by decide, by decide, by decide, by decide, by decide, fun _ s wf =>
    ⟨fun clc => completes_of_impliedEffect wf clc rfl (impliedEffect_clc s.cpu),
     fun sec => completes_of_impliedEffect wf sec rfl (impliedEffect_sec s.cpu),
     fun cli => completes_of_impliedEffect wf cli rfl (impliedEffect_cli s.cpu),
     fun sei => completes_of_impliedEffect wf sei rfl (impliedEffect_sei s.cpu),
     fun cld => completes_of_impliedEffect wf cld rfl (impliedEffect_cld s.cpu),
     fun sed => completes_of_impliedEffect wf sed rfl (impliedEffect_sed s.cpu),
     fun clv => completes_of_impliedEffect wf clv rfl (impliedEffect_clv s.cpu)⟩⟩

set_option maxRecDepth 20000 in
/-- Settles O18: a NOP runs as its entry says, and neither of its two classes leaves more than the core past the instruction. -/
theorem nopsOnlyAdvance : Obligations.NopsOnlyAdvance := by
  refine ⟨by decide, by decide, fun i s wf nop => ?_⟩
  obtain ⟨r, row, e⟩ := exec_runs wf s
  obtain ⟨cpu, mem⟩ := runRow_nop row (row.of_names nop) s
  exact ⟨_, e, cpu, fun b => by rw [mem]⟩

end Sys2Proof.Machine
end

section
/-! PROOFS. Writing several flags (R29): a later list of writes hides an earlier one on the flags it names. The composites of R168
need it, since their second operation writes again the flags that the first has written. -/

namespace Sys2Proof.Machine

theorem setFlags_cons (p : Byte) (w : Flag × Bool) (l : List (Flag × Bool)) :
    setFlags p (w :: l) = setFlags (putFlag p w.1 w.2) l := rfl

/-- A flag that no write names keeps its value. -/
theorem getFlag_setFlags_of_notMem {f : Flag} {l : List (Flag × Bool)} (h : f ∉ l.map Prod.fst) (p : Byte) :
    getFlag (setFlags p l) f = getFlag p f := by
  induction l generalizing p with
  | nil => rfl
  | cons w l ih =>
    rw [List.map_cons, List.mem_cons, not_or] at h
    rw [setFlags_cons, ih h.2, getFlag_putFlag, if_neg (Ne.symm h.1)]

/-- A flag that some write names does not show the status byte from before. -/
theorem getFlag_setFlags_of_mem {f : Flag} {l : List (Flag × Bool)} (h : f ∈ l.map Prod.fst) (p q : Byte) :
    getFlag (setFlags p l) f = getFlag (setFlags q l) f := by
  induction l generalizing p q with
  | nil => cases h
  | cons w l ih =>
    rw [setFlags_cons, setFlags_cons]
    by_cases later : f ∈ l.map Prod.fst
    · exact ih later _ _
    · have first : w.1 = f := by
        rw [List.map_cons, List.mem_cons] at h
        exact (h.resolve_right later).symm
      rw [getFlag_setFlags_of_notMem later, getFlag_setFlags_of_notMem later, getFlag_putFlag, getFlag_putFlag,
        if_pos first, if_pos first]

/-- Writes of flags that are all written again leave no trace. -/
theorem setFlags_setFlags_of_subset {l l' : List (Flag × Bool)} (h : l.map Prod.fst ⊆ l'.map Prod.fst) (p : Byte) :
    setFlags (setFlags p l) l' = setFlags p l' := by
  refine status_ext fun f => ?_
  by_cases again : f ∈ l'.map Prod.fst
  · exact getFlag_setFlags_of_mem again _ _
  · have untouched : f ∉ l.map Prod.fst := fun hf => again (h hf)
    rw [getFlag_setFlags_of_notMem again, getFlag_setFlags_of_notMem again, getFlag_setFlags_of_notMem untouched]

end Sys2Proof.Machine
end

section
/-! PROOFS. The undocumented composites and loads (R169 to R184): the effect of each mnemonic in the claims' terms, which its access
class then turns into the statement about `exec`. The encodings are read off the table. -/

namespace Sys2Proof.Machine

/-! ## The read-modify-write composites (R168) -/

section
variable (r : Byte × Bool) (v m : Byte) (c : Cpu)

/-- A shift, then N and Z again from the value loaded into A: C is the shift's and N and Z are the load's. -/
theorem loadA_shifted :
    ((c.shifted r).2).loadA v = { c with a := v, p := setFlags c.p ((.c, r.2) :: nz v) } :=
  congrArg (fun p => { c with a := v, p := p })
    (setFlags_setFlags_of_subset (l := nz r.1) (l' := nz v) (List.Subset.refl _) (putFlag c.p .c r.2))

theorem flag_shifted (f : Flag) :
    (c.shifted r).2.flag f = match f with | .c => r.2 | .z => r.1 == 0 | .n => r.1.getLsbD 7 | f => c.flag f := by
  cases f <;> simp [Cpu.shifted, flag_setNZ]

/-- The addition after a rotate takes the rotate's carry in, and D as it was (R172, decision D17). -/
theorem addResult_shifted :
    (c.shifted r).2.addResult m = if c.flag .d = true then addDec c.a m r.2 else addBin c.a m r.2 := by
  rw [Cpu.addResult, flag_shifted, flag_shifted]
  rfl

/-- The four flags of an ALU result hide what was written to them before. -/
theorem takeAlu_setFlags (res : AluResult) {l : List (Flag × Bool)} (h : l.map Prod.fst ⊆ [.c, .v, .z, .n]) :
    ({ c with p := setFlags c.p l } : Cpu).takeAlu res = { c with a := res.value, p := setFlags c.p (aluFlags res) } :=
  congrArg (fun p => { c with a := res.value, p := p }) (setFlags_setFlags_of_subset (l' := aluFlags res) h c.p)

/-- C, Z and N of a shift are hidden. -/
theorem takeAlu_shifted (res : AluResult) :
    (c.shifted r).2.takeAlu res = { c with a := res.value, p := setFlags c.p (aluFlags res) } :=
  takeAlu_setFlags c res (l := (.c, r.2) :: nz r.1) (by decide : [Flag.c, .z, .n] ⊆ [.c, .v, .z, .n])

/-- Z and N of an increment are hidden. -/
theorem takeAlu_setNZ (res : AluResult) :
    (c.setNZ v).takeAlu res = { c with a := res.value, p := setFlags c.p (aluFlags res) } :=
  takeAlu_setFlags c res (l := nz v) (by decide : [Flag.z, .n] ⊆ [.c, .v, .z, .n])

/-- The three flags of a comparison hide N and Z from before. -/
theorem compare_setNZ (a : Byte) : (c.setNZ v).compare a m = { c with p := setFlags c.p (compareFlags a m) } := by
  rw [compare_eq_setFlags, setNZ_eq_setFlags]
  exact congrArg (fun p => { c with p := p })
    (setFlags_setFlags_of_subset (l := nz v) (l' := compareFlags a m) (by decide : [Flag.z, .n] ⊆ [.c, .z, .n]) c.p)

/-- A subtraction reads neither N nor Z. -/
theorem subResult_setNZ : (c.setNZ v).subResult m = c.subResult m := by
  rw [Cpu.subResult, flag_setNZ, flag_setNZ]
  rfl

end

section
variable (m : Byte) (c : Cpu)

theorem modifyEffect_slo : modifyEffect .slo m c = ((asl m).1,
    { c with a := c.a ||| (asl m).1, p := setFlags c.p ((.c, (asl m).2) :: nz (c.a ||| (asl m).1)) }) :=
  congrArg (Prod.mk _) (loadA_shifted (asl m) (c.a ||| (asl m).1) c)

theorem modifyEffect_rla : modifyEffect .rla m c = ((rol m (c.flag .c)).1,
    { c with
      a := c.a &&& (rol m (c.flag .c)).1
      p := setFlags c.p ((.c, (rol m (c.flag .c)).2) :: nz (c.a &&& (rol m (c.flag .c)).1)) }) :=
  congrArg (Prod.mk _) (loadA_shifted (rol m (c.flag .c)) (c.a &&& (rol m (c.flag .c)).1) c)

theorem modifyEffect_sre : modifyEffect .sre m c = ((lsr m).1,
    { c with a := c.a ^^^ (lsr m).1, p := setFlags c.p ((.c, (lsr m).2) :: nz (c.a ^^^ (lsr m).1)) }) :=
  congrArg (Prod.mk _) (loadA_shifted (lsr m) (c.a ^^^ (lsr m).1) c)

theorem modifyEffect_rra : modifyEffect .rra m c = ((ror m (c.flag .c)).1,
    let r := if c.flag .d = true then addDec c.a (ror m (c.flag .c)).1 (ror m (c.flag .c)).2
      else addBin c.a (ror m (c.flag .c)).1 (ror m (c.flag .c)).2
    { c with a := r.value, p := setFlags c.p (aluFlags r) }) := by
  rw [← addResult_shifted]
  exact congrArg (Prod.mk _) (takeAlu_shifted (ror m (c.flag .c)) c _)

theorem modifyEffect_dcp : modifyEffect .dcp m c = (m - 1, { c with p := setFlags c.p (compareFlags c.a (m - 1)) }) :=
  congrArg (Prod.mk (m - 1)) (compare_setNZ (m - 1) (m - 1) c c.a)

theorem modifyEffect_isc : modifyEffect .isc m c = (m + 1,
    { c with a := (c.subResult (m + 1)).value, p := setFlags c.p (aluFlags (c.subResult (m + 1))) }) := by
  rw [← subResult_setNZ (m + 1)]
  exact congrArg (Prod.mk (m + 1)) (takeAlu_setNZ (m + 1) c _)

end

/-- A read-modify-write instruction whose result and core are known from its effect (R209), in canonical memory. -/
theorem modifiesOperand_of_modifyEffect {i : Instr} (wf : i.WellFormed) {m : Mnemonic} (hm : i.hasMnemonic m = true)
    (hc : classOf m = [.rmw]) {s : State} (mem : Memory.wf s.bus.mem = true) {result : Byte → Byte} {core : Byte → Cpu}
    (effect : ∀ b, modifyEffect m b s.cpu = (result b, core b)) : ModifiesOperand i s result core := by
  simpa only [effect] using run_modify wf hm hc mem

/-! ## The read class -/

/-- Z of SBX's comparison is Z of the difference that SBX puts in X (R180). -/
theorem beq_eq_sub_beq_zero (t m : Byte) : (t == m) = (t - m == 0) := by
  rw [Bool.eq_iff_iff, beq_iff_eq, beq_iff_eq, sub_eq_zero]

section
variable (m : Byte) (c : Cpu)

theorem readEffect_lax : readEffect {} .lax m c = { c with a := m, x := m, p := setFlags c.p (nz m) } :=
  setNZ_eq_setFlags m { c with a := m, x := m }

theorem readEffect_las : readEffect {} .las m c =
    { c with a := m &&& c.s, x := m &&& c.s, s := m &&& c.s, p := setFlags c.p (nz (m &&& c.s)) } :=
  setNZ_eq_setFlags (m &&& c.s) { c with a := m &&& c.s, x := m &&& c.s, s := m &&& c.s }

theorem readEffect_anc : readEffect {} .anc m c =
    { c with a := c.a &&& m, p := setFlags c.p (nz (c.a &&& m) ++ [(.c, (c.a &&& m).getLsbD 7)]) } := rfl

theorem readEffect_alr : readEffect {} .alr m c =
    { c with
      a := (lsr (c.a &&& m)).1
      p := setFlags c.p ((.c, (lsr (c.a &&& m)).2) :: nz (lsr (c.a &&& m)).1) } := rfl

theorem readEffect_sbx : readEffect {} .sbx m c =
    { c with
      x := (c.a &&& c.x) - m
      p := setFlags c.p ((.c, decide (m.toNat ≤ (c.a &&& c.x).toNat)) :: nz ((c.a &&& c.x) - m)) } := by
  rw [nz, ← beq_eq_sub_beq_zero]
  rfl

theorem readEffect_ane : readEffect {} .ane m c =
    { c with a := (c.a ||| 0xEE#8) &&& c.x &&& m, p := setFlags c.p (nz ((c.a ||| 0xEE#8) &&& c.x &&& m)) } :=
  setNZ_eq_setFlags ((c.a ||| 0xEE#8) &&& c.x &&& m) { c with a := (c.a ||| 0xEE#8) &&& c.x &&& m }

theorem readEffect_lxa : readEffect {} .lxa m c =
    { c with
      a := (c.a ||| 0xEE#8) &&& m
      x := (c.a ||| 0xEE#8) &&& m
      p := setFlags c.p (nz ((c.a ||| 0xEE#8) &&& m)) } :=
  setNZ_eq_setFlags ((c.a ||| 0xEE#8) &&& m) { c with a := (c.a ||| 0xEE#8) &&& m, x := (c.a ||| 0xEE#8) &&& m }

end

/-- An instruction of the read class completes with the core that its effect on the operand is known to leave. -/
theorem completes_of_readEffect {i : Instr} (wf : i.WellFormed) {m : Mnemonic} (hm : i.hasMnemonic m = true)
    (hc : classOf m = [.read]) {s : State} {c : Cpu} (effect : readEffect {} m (operandByte i s) s.cpu = c) :
    Completes i s (past i s c) :=
  effect ▸ run_read wf hm hc s

/-! ## The obligations -/

set_option maxRecDepth 20000 in
/-- Settles O19: the four are of the read-modify-write class, and the flags that the second operation writes again hide the
shift's; what is left of the shift is the byte and, for three of them, C. -/
theorem shiftComposites : Obligations.ShiftComposites :=
  ⟨by decide, by decide, by decide, by decide, fun _ s wf mem =>
    ⟨fun slo => modifiesOperand_of_modifyEffect wf slo rfl mem fun b => modifyEffect_slo b s.cpu,
     fun rla => modifiesOperand_of_modifyEffect wf rla rfl mem fun b => modifyEffect_rla b s.cpu,
     fun sre => modifiesOperand_of_modifyEffect wf sre rfl mem fun b => modifyEffect_sre b s.cpu,
     fun rra => modifiesOperand_of_modifyEffect wf rra rfl mem fun b => modifyEffect_rra b s.cpu⟩⟩

set_option maxRecDepth 20000 in
/-- Settles O20: both are of the read-modify-write class, and the second operation writes N and Z again and does not read them. -/
theorem decrementCompareAndIncrementSubtract : Obligations.DecrementCompareAndIncrementSubtract :=
  ⟨by decide, by decide, fun _ s wf mem =>
    ⟨fun dcp => modifiesOperand_of_modifyEffect wf dcp rfl mem fun b => modifyEffect_dcp b s.cpu,
     fun isc => modifiesOperand_of_modifyEffect wf isc rfl mem fun b => modifyEffect_isc b s.cpu⟩⟩

set_option maxRecDepth 20000 in
/-- Settles O21: both are of the read class and load one value into two or three registers. -/
theorem loadsOfSeveralRegisters : Obligations.LoadsOfSeveralRegisters :=
  ⟨by decide, by decide, fun _ _ wf =>
    ⟨fun lax => completes_of_readEffect wf lax rfl (readEffect_lax _ _),
     fun las => completes_of_readEffect wf las rfl (readEffect_las _ _)⟩⟩

set_option maxRecDepth 20000 in
/-- Settles O22: the three are of the read class; SBX's comparison sets Z by `t = M`, which is that `t - M` is 0. -/
theorem immediateComposites : Obligations.ImmediateComposites :=
  ⟨by decide, by decide, by decide, fun _ _ wf =>
    ⟨fun anc => completes_of_readEffect wf anc rfl (readEffect_anc _ _),
     fun alr => completes_of_readEffect wf alr rfl (readEffect_alr _ _),
     fun sbx => completes_of_readEffect wf sbx rfl (readEffect_sbx _ _)⟩⟩

set_option maxRecDepth 20000 in
/-- Settles O24: both are of the read class, and the machine runs them with the default constants of R11. -/
theorem magicConstants : Obligations.MagicConstants :=
  ⟨by decide, by decide, fun _ _ wf =>
    ⟨fun ane => completes_of_readEffect wf ane rfl (readEffect_ane _ _),
     fun lxa => completes_of_readEffect wf lxa rfl (readEffect_lxa _ _)⟩⟩

end Sys2Proof.Machine
end

section
/-! PROOFS. The bus accesses of the modes with an operand in memory (R202 to R209): each access class adds its data accesses to the
accesses of the mode's address cycles, at the addresses the resolver gives. -/

namespace Sys2Proof.Machine

theorem Accessed.trans {s t u : State} {l k : List BusEvent} (h : Accessed s t l) (h' : Accessed t u k) :
    Accessed s u (l ++ k) := by
  rw [Accessed] at *
  rw [h', h, List.reverse_append, List.append_assoc]

/-- A read sees the byte that memory held before, where memory is as before. -/
theorem rd_congr {s t : State} (h : t.bus.mem = s.bus.mem) (a : Word) : rd t a = rd s a := by rw [rd, rd, h]

/-! ## What the table says of the entries with such a mode -/

set_option maxRecDepth 20000 in
theorem table_unstable :
    ∀ op : Byte, ((opcodeTable op).all fun r => r.mode.indexesBase || (unstableEffect r.mnemonic).isNone) = true := by
  decide

/-- SHA, SHX, SHY and TAS have modes that index a base only (R185). -/
theorem HasRow.unstableEffect_eq_none {i : Instr} {r : Row} (h : HasRow i r) (hi : r.mode.indexesBase = false) :
    unstableEffect r.mnemonic = none := by
  have entry : opcodeTable i.opcode = some r := h.entry
  have t := table_unstable i.opcode
  simpa [entry, hi] using t

/-! ## The address cycles -/

section
variable {l : Located} {mode : Mode} {b1 b2 : Byte} {s : State}

/-- The resolver's three results, where the address cycles end. -/
theorem Reaches.located (h : Reaches l mode b1 b2 s) {ea0 ea : Word} {crossed : Bool}
    (operand : resolve mode b1 b2 s = .addr ea0 ea crossed) : l.ea0 = ea0 ∧ l.ea = ea ∧ l.crossed = crossed := by
  simpa using h.resolved.symm.trans operand

/-- The address cycles and the uncorrected read leave the core but for PC and the cycles. -/
theorem Reaches.uncorrectedRead_cpu_moved (h : Reaches l mode b1 b2 s) :
    ∃ pc n, l.uncorrectedRead.cpu = s.cpu.moved pc n s.cpu.instructions := by
  rw [uncorrectedRead_cpu, h.cpu]
  exact ⟨_, _, rfl⟩

end

/-- The address cycles, then the uncorrected read in a mode that indexes a base (R206, R208). -/
theorem uncorrectedRead_accessed {mode : Mode} (addr : hasAddress mode = true) (b1 b2 : Byte) (s : State) :
    Accessed s (locate mode b1 b2 s).uncorrectedRead (locateAccesses mode b1 s ++
      if mode.indexesBase then [rd s (locate mode b1 b2 s).ea0] else []) := by
  have reach := locate_reaches s addr b1 b2
  rw [Accessed, uncorrectedRead_log, reach.indexed, reach.mem, locate_log, List.reverse_append, List.append_assoc]
  cases mode.indexesBase <;> rfl

/-! ## The data accesses of each class -/

section
variable {i : Instr} {r : Row} (row : HasRow i r) {s : State} {ea0 ea : Word} {crossed : Bool}
  (operand : operandOf i s = .addr ea0 ea crossed)
include row operand

/-- Read class: the uncorrected address, and the address after a page cross (R202 to R205, R207, R208). -/
theorem runRow_read_accessed (cls : r.cls = .read) (addr : hasAddress r.mode = true) :
    Accessed s (runRow r i.b1 i.b2 s) (locateAccesses r.mode i.b1 s ++ rd s ea0 :: if crossed then [rd s ea] else []) := by
  have reach := locate_reaches s addr i.b1 i.b2
  obtain ⟨rfl, rfl, rfl⟩ := reach.located (row.operand s ▸ operand)
  have notImm : r.mode ≠ .immediate := by
    intro imm
    rw [imm] at addr
    cases addr
  simp only [runRow, cls, notImm, if_false]
  refine Accessed.trans (locate_log s r.mode i.b1 i.b2) ?_
  rw [Accessed, readAt_log, ← rd_congr reach.mem, ← rd_congr reach.mem]
  cases (locate r.mode i.b1 i.b2 s).crossed <;> rfl

/-- Write class: the uncorrected read of a mode that indexes a base, and the store (R102, R185, R202 to R208). -/
theorem runRow_write_accessed (cls : r.cls = .write) :
    Accessed s (runRow r i.b1 i.b2 s) ((locateAccesses r.mode i.b1 s ++ if r.mode.indexesBase then [rd s ea0] else []) ++
      [storeEvent i s ea0 ea crossed]) := by
  have addr := (row.fixedCycles (.inl cls) s).1
  have reach := locate_reaches s addr i.b1 i.b2
  obtain ⟨rfl, rfl, rfl⟩ := reach.located (row.operand s ▸ operand)
  obtain ⟨pc, n, cpu⟩ := reach.uncorrectedRead_cpu_moved
  refine (uncorrectedRead_accessed addr i.b1 i.b2 s).trans ?_
  simp only [runRow, cls, storeEvent, row.mnemonic]
  cases unstable : unstableEffect r.mnemonic with
  | none =>
    simp only [Accessed, writeAt_log, cpu, writeEffect_moved]
    rfl
  | some regs =>
    simp only [Accessed, unstableWriteAt_log, cpu, unstableEffect_moved unstable]
    rfl

/-- Read-modify-write class: the uncorrected read of a mode that indexes a base, and the three accesses of R209. -/
theorem runRow_rmw_accessed (cls : r.cls = .rmw) :
    Accessed s (runRow r i.b1 i.b2 s) ((locateAccesses r.mode i.b1 s ++ if r.mode.indexesBase then [rd s ea0] else []) ++
      modifyEvents i s ea) := by
  have addr := (row.fixedCycles (.inr cls) s).1
  have reach := locate_reaches s addr i.b1 i.b2
  obtain ⟨rfl, rfl, rfl⟩ := reach.located (row.operand s ▸ operand)
  refine (uncorrectedRead_accessed addr i.b1 i.b2 s).trans ?_
  have result := modifyEffect_moved r.mnemonic (memRead s.bus.mem (locate r.mode i.b1 i.b2 s).ea)
    (s.cpu.pc + BitVec.ofNat 16 (r.mode.operandBytes + 1))
    (s.cpu.cycles + r.mode.addressCycles + if r.mode.indexesBase then 3 else 2) s.cpu.instructions s.cpu
  simp only [Cpu.moved] at result
  simp only [runRow, cls, Accessed, modifyAt_log, reach.mem, reach.cpu, reach.indexed, result, modifyEvents, row.mnemonic]
  rfl

end

/-! ## By mode -/

section
variable {i : Instr} (wf : i.WellFormed) {s : State} {m : Mode} (mode : i.mode = m)
include wf mode

/-- A mode that takes no index on a base. -/
theorem dataAccesses_of_mode (addr : hasAddress m = true) (plain : m.indexesBase = false) {ea : Word}
    (operand : resolve m i.b1 i.b2 s = .direct ea) : DataAccesses i s (locateAccesses m i.b1 s) ea := by
  obtain ⟨r, row, e⟩ := exec_runs wf s
  obtain rfl : r.mode = m := row.mode.symm.trans mode
  have at_ea : operandOf i s = .addr ea ea false := (row.operand s).trans operand
  rw [DataAccesses, row.cls]
  refine ⟨fun read => ⟨_, e, runRow_read_accessed row at_ea read addr⟩, fun write => ?_, fun rmw => ?_⟩
  · have ran := runRow_write_accessed row at_ea write
    rw [plain, if_neg Bool.false_ne_true, List.append_nil, storeEvent, row.mnemonic, row.unstableEffect_eq_none plain] at ran
    rw [row.mnemonic]
    exact ⟨_, e, ran⟩
  · have ran := runRow_rmw_accessed row at_ea rmw
    rw [plain, if_neg Bool.false_ne_true, List.append_nil] at ran
    exact ⟨_, e, ran⟩

/-- A mode that indexes a base. -/
theorem indexedAccesses_of_mode (addr : hasAddress m = true) (indexed : m.indexesBase = true) {base : Word} {idx : Byte}
    (operand : resolve m i.b1 i.b2 s = .indexed base idx) : IndexedAccesses i s (locateAccesses m i.b1 s) base idx := by
  obtain ⟨r, row, e⟩ := exec_runs wf s
  obtain rfl : r.mode = m := row.mode.symm.trans mode
  have on_base : operandOf i s = .indexed base idx := (row.operand s).trans operand
  rw [IndexedAccesses, row.cls]
  refine ⟨fun read => ⟨_, e, runRow_read_accessed row on_base read addr⟩, fun write => ?_, fun rmw => ?_⟩
  · have ran := runRow_write_accessed row on_base write
    rw [indexed, if_pos rfl, List.append_assoc] at ran
    exact ⟨_, e, ran⟩
  · have ran := runRow_rmw_accessed row on_base rmw
    rw [indexed, if_pos rfl, List.append_assoc] at ran
    exact ⟨_, e, ran⟩

end

/-! ## The obligations -/

/-- Settles O29: the accesses of the three page-0 modes' address cycles are the fetches and, with an index, the discarded read. -/
theorem zeropageAccesses : Obligations.ZeropageAccesses := fun _ _ wf =>
  ⟨fun mode => dataAccesses_of_mode wf mode rfl rfl rfl,
   fun mode => dataAccesses_of_mode wf mode rfl rfl rfl,
   fun mode => dataAccesses_of_mode wf mode rfl rfl rfl⟩

/-- Settles O30: the address cycles of the three modes are the fetches alone; two of the modes index the operand as a base. -/
theorem absoluteAccesses : Obligations.AbsoluteAccesses := fun _ _ wf =>
  ⟨fun mode => dataAccesses_of_mode wf mode rfl rfl rfl,
   fun mode => indexedAccesses_of_mode wf mode rfl rfl rfl,
   fun mode => indexedAccesses_of_mode wf mode rfl rfl rfl⟩

/-- Settles O31: the pointer's two bytes are read in page 0, and indirect_y indexes the pointer as a base. -/
theorem indirectAccesses : Obligations.IndirectAccesses := fun _ _ wf =>
  ⟨fun mode => dataAccesses_of_mode wf mode rfl rfl rfl,
   fun mode => indexedAccesses_of_mode wf mode rfl rfl rfl⟩

end Sys2Proof.Machine
end

section
/-! PROOFS. The bus accesses of the instructions without an operand in memory: the two-cycle implied and accumulator instructions,
the immediate ones, branches and jumps (R200, R201, R210, R211), and the stack instructions (R212 to R216). -/

namespace Sys2Proof.Machine

/-! ## What well-formedness says of an entry without an operand in memory -/

theorem class_of_immediate {r : Row} (ok : r.modeOk = true) (mode : r.mode = .immediate) : r.cls = .read := by
  cases cls : r.cls with
  | read => rfl
  | write | rmw | control | halt => simp [Row.modeOk, cls, mode] at ok

theorem class_of_relative {r : Row} (ok : r.modeOk = true) (mode : r.mode = .relative) : r.cls = .control := by
  cases cls : r.cls with
  | control => rfl
  | read | write | rmw | halt => simp [Row.modeOk, cls, mode] at ok

/-- The two-cycle control entries are those outside the long sequences (R200, R210). -/
theorem controlCycles_eq_two_iff {mn : Mnemonic} {m : Mode} : mn.controlCycles m = 2 ↔ longControl mn = false := by
  cases mn with
  | jmp => by_cases h : m = .indirect <;> simp [Mnemonic.controlCycles, longControl, h]
  | _ => simp [Mnemonic.controlCycles, longControl]

section
variable {i : Instr} {r : Row} (row : HasRow i r)
include row

theorem HasRow.modeOk : r.modeOk = true := (wellFormed_iff.1 row.wf).2.1

/-- The base count of a control entry is its mnemonic's (R219). -/
theorem HasRow.cycles_eq_controlCycles (cls : r.cls = .control) : r.cycles = r.mnemonic.controlCycles r.mode := by
  simpa [Row.cyclesOk, cls] using (wellFormed_iff.1 row.wf).2.2

/-- A relative entry is a branch (R134 to R141). -/
theorem HasRow.of_relative (mode : r.mode = .relative) : r.cls = .control ∧ longControl r.mnemonic = false := by
  obtain ⟨r', entry', -, -, short⟩ := opcodeTable_entry i.opcode
  obtain rfl : r = r' := Option.some.inj (row.entry.symm.trans entry')
  exact ⟨class_of_relative row.modeOk mode, short mode⟩

/-- A branch runs as `branch` on its mnemonic's condition (R132). -/
theorem runRow_relative (mode : r.mode = .relative) (s : State) :
    runRow r i.b1 i.b2 s = branch (branchCondition r.mnemonic).1 (branchCondition r.mnemonic).2 i.b1 s := by
  obtain ⟨cls, short⟩ := row.of_relative mode
  simp only [runRow, cls, mode, runControl_relative short]

/-- A branch is taken when the flag of its mnemonic's condition has the condition's value (R132). -/
theorem HasRow.branchTaken_eq (s : State) :
    branchTaken i s = (s.cpu.flag (branchCondition r.mnemonic).1 == (branchCondition r.mnemonic).2) := by
  rw [branchTaken, row.mnemonic]

/-- An immediate entry runs as `immediate` (R201). -/
theorem runRow_immediate (mode : r.mode = .immediate) (s : State) :
    runRow r i.b1 i.b2 s = immediate (readEffect {} r.mnemonic) i.b1 s := by
  simp only [runRow, class_of_immediate row.modeOk mode, mode, if_true]

end

/-! ## Accesses -/

section
variable (s : State)

theorem immediate_log (f : Byte → Cpu → Cpu) (m : Byte) : Accessed s (immediate f m s) (fetch2 s) := by
  simp [Accessed, fetch2, rd, immediate]

/-- BRK fetches two bytes and enters the handler (R216). -/
theorem breakInterrupt_log :
    Accessed s (breakInterrupt s) (fetch2 s ++
      [.write (stackAddr s.cpu.s) (hiByte (s.cpu.pc + 2)), .write (stackAddr (s.cpu.s - 1)) (loByte (s.cpu.pc + 2)),
        .write (stackAddr (s.cpu.s - 1 - 1)) s.cpu.statusForBreak,
        rd (breakInterrupt s) Config.irqVector, rd (breakInterrupt s) (Config.irqVector + 1)]) := by
  have fetches : Accessed s s.fetched.fetched (fetch2 s) := by simp [Accessed, fetch2, rd]
  have entry := enterHandler_log s.fetched.fetched s.cpu.statusForBreak Config.irqVector
  rw [fetched2_cpu] at entry
  exact fetches.trans entry

end

theorem Byte.add_one_one (b : Byte) : b + 1 + 1 = b + 2 := BitVec.add_assoc b 1 1
theorem Byte.add_two_one (b : Byte) : b + 2 + 1 = b + 3 := BitVec.add_assoc b 2 1
theorem Byte.sub_one_one (b : Byte) : b - 1 - 1 = b - 2 := by bv_omega

/-! ## The obligations -/

/-- Settles O32: each entry of these modes runs as the operation whose accesses are known, by its class and mode; a control
entry of two cycles is outside the long sequences. -/
theorem impliedImmediateAndJumpAccesses : Obligations.ImpliedImmediateAndJumpAccesses := by
  refine ⟨fun i s wf => ?_, fun w s => ⟨⟨_, rfl, jumpAbsolute_log s w⟩, ⟨_, rfl, jumpIndirect_log s w⟩⟩⟩
  obtain ⟨r, row, e⟩ := exec_runs wf s
  rw [row.mode, row.cls, row.entry]
  refine ⟨fun immediate => ?_, fun control implied two => ?_, fun relative => ?_⟩
  · rw [runRow_immediate row immediate] at e
    exact ⟨_, e, immediate_log s _ _⟩
  · have cycles : r.cycles = 2 := Option.some.inj two
    rw [row.cycles_eq_controlCycles control, controlCycles_eq_two_iff] at cycles
    obtain ⟨-, -, log⟩ := runRow_implied s row control cycles implied
    exact ⟨_, e, log⟩
  · rw [runRow_relative row relative] at e
    have log := branch_log s (branchCondition r.mnemonic).1 (branchCondition r.mnemonic).2 i.b1
    simp only [← row.branchTaken_eq s, samePage, beq_iff_eq] at log
    exact ⟨_, e, log⟩

/-- Settles O33: the accesses of the operation each stack instruction runs as, with S stepped one at a time there. -/
theorem stackAccesses : Obligations.StackAccesses := by
  intro s _
  have rts := returnFromSubroutine_log s
  have rti := returnFromInterrupt_log s
  have brk := breakInterrupt_log s
  rw [Byte.add_one_one] at rts rti
  rw [Byte.add_two_one] at rti
  rw [Byte.sub_one_one] at brk
  exact ⟨⟨_, rfl, pushValue_log s Cpu.opPha⟩, ⟨_, rfl, pushValue_log s Cpu.opPhp⟩, ⟨_, rfl, pullValue_log s Cpu.opPla⟩,
    ⟨_, rfl, pullValue_log s Cpu.opPlp⟩, ⟨_, rfl, rts⟩, ⟨_, rfl, rti⟩, fun target => ⟨_, rfl, jumpToSubroutine_log s target⟩,
    ⟨_, rfl, brk⟩⟩

end Sys2Proof.Machine
end

section
/-! PROOFS. The cycle counts of R219: the accesses of every entry's run are as many as the cycles it counts (R46, R193), and the
cycles are the base count with the conditional ones of page crosses and branches. -/

namespace Sys2Proof.Machine

/-- From `s` to `t` there are `n` cycles, with one bus access in each. -/
def Takes (s t : State) (n : Nat) : Prop := t.cpu.cycles = s.cpu.cycles + n ∧ ∃ l, Accessed s t l ∧ l.length = n

/-! ## The count of an entry -/

/-- Only a mode that indexes a base crosses a page (R91, R92). -/
theorem indexesBase_of_crossed {mode : Mode} {b1 b2 : Byte} {s : State} (h : (resolve mode b1 b2 s).crossed = true) :
    mode.indexesBase = true := by
  cases mode with
  | absoluteX | absoluteY | indirectY => rfl
  | implied | accumulator | immediate | relative | zeropage | zeropageX | zeropageY | absolute | indirect | indirectX => cases h

section
variable {i : Instr} {r : Row} (row : HasRow i r) (s : State)
include row

/-- The boundary flag is set on the read entries of the modes that index a base (R74). -/
theorem HasRow.boundary_eq : r.boundary = (r.cls == .read && r.mode.indexesBase) := (wellFormed_iff.1 row.wf).1

/-- No entry of another class than control is a branch. -/
theorem HasRow.ne_relative (cls : r.cls ≠ .control) : r.mode ≠ .relative := fun relative => cls (row.of_relative relative).1

/-- A read counts its address cycles, the data read and one more on a page cross (R201 to R208). -/
theorem HasRow.cycleCount_read (cls : r.cls = .read) :
    cycleCount i s = r.mode.addressCycles + 1 + if (operandOf i s).crossed then 1 else 0 := by
  have base : r.cycles = r.mode.addressCycles + 1 := by
    simpa [Row.cyclesOk, AccessClass.baseCycles, cls] using (wellFormed_iff.1 row.wf).2.2
  rw [row.cycles, base, row.boundary_eq, cls, if_neg (row.ne_relative (by rw [cls]; decide)), row.operand]
  cases crossed : (resolve r.mode i.b1 i.b2 s).crossed with
  | false => simp
  | true => simp [indexesBase_of_crossed crossed]

/-- A control entry that is no branch counts its mnemonic's cycles (R200, R211 to R216). -/
theorem HasRow.cycleCount_control (cls : r.cls = .control) (notRelative : r.mode ≠ .relative) :
    cycleCount i s = r.mnemonic.controlCycles r.mode := by
  rw [row.cycles, row.cycles_eq_controlCycles cls, row.boundary_eq, cls, if_neg notRelative]
  rfl

/-- JAM counts one cycle (R218). -/
theorem HasRow.cycleCount_halt (cls : r.cls = .halt) : cycleCount i s = 1 := by
  have base : r.cycles = 1 := by simpa [Row.cyclesOk, cls] using (wellFormed_iff.1 row.wf).2.2
  rw [row.cycles, base, row.boundary_eq, cls, if_neg (row.ne_relative (by rw [cls]; decide))]
  rfl

/-- A branch counts 2, 3 or 4 cycles (R132, R219). -/
theorem HasRow.cycleCount_relative (relative : r.mode = .relative) :
    cycleCount i s =
      if branchTaken i s then (if samePage (branchTarget (s.cpu.pc + 2) i.b1) (s.cpu.pc + 2) then 3 else 4) else 2 := by
  obtain ⟨cls, short⟩ := row.of_relative relative
  rw [row.cycles, row.cycles_eq_controlCycles cls, controlCycles_eq_two_iff.2 short, row.boundary_eq, cls, if_pos relative,
    branchExtra]
  cases branchTaken i s with
  | false => rfl
  | true => cases samePage (branchTarget (s.cpu.pc + 2) i.b1) (s.cpu.pc + 2) <;> rfl

/-- The count of R219, with a branch's cycles in full. -/
theorem HasRow.cycleCount_eq :
    cycleCount i s =
      if r.mode = .relative then
        (if branchTaken i s then
          (if hiByte (s.cpu.pc + 2 + i.b1.signExtend 16) = hiByte (s.cpu.pc + 2) then 3 else 4)
        else 2)
      else r.cycles + (if r.boundary = true ∧ (operandOf i s).crossed = true then 1 else 0) := by
  by_cases relative : r.mode = .relative
  · simp only [row.cycleCount_relative s relative, relative, if_true, samePage, beq_iff_eq, branchTarget, signExtend]
  · simp only [row.cycles s, relative, if_false, Bool.and_eq_true, Nat.add_zero]

end

/-! ## The count of a run -/

theorem locateAccesses_length {mode : Mode} (addr : hasAddress mode = true) (b1 : Byte) (s : State) :
    (locateAccesses mode b1 s).length = mode.addressCycles := by
  cases mode with
  | implied | accumulator | immediate | relative | indirect => cases addr
  | zeropage | zeropageX | zeropageY | absolute | absoluteX | absoluteY | indirectX | indirectY => rfl

/-- A branch takes its 2, 3 or 4 cycles (R132, R210). -/
theorem branch_takes (f : Flag) (want : Bool) (off : Byte) (s : State) :
    Takes s (branch f want off s)
      (if s.cpu.flag f == want then (if samePage (branchTarget (s.cpu.pc + 2) off) (s.cpu.pc + 2) then 3 else 4) else 2) := by
  refine ⟨by rw [branch_cpu], _, branch_log s f want off, ?_⟩
  rw [List.length_append]
  split
  · split <;> rfl
  · rfl

/-- The long control sequences take their mnemonic's cycles (R211 to R216). -/
theorem runControl_long_takes {mn : Mnemonic} (long : longControl mn = true) (mode : Mode) (b1 b2 : Byte) (s : State) :
    Takes s (runControl mn mode b1 b2 s) (mn.controlCycles mode) := by
  cases mn with
  | jmp =>
    by_cases h : mode = .indirect
    · rw [runControl, Mnemonic.controlCycles, if_pos h, if_pos h]
      exact ⟨by rw [jumpIndirect_cpu], _, jumpIndirect_log s _, rfl⟩
    · rw [runControl, Mnemonic.controlCycles, if_neg h, if_neg h]
      exact ⟨by rw [jumpAbsolute_cpu], _, jumpAbsolute_log s _, rfl⟩
  | jsr => exact ⟨congrArg Cpu.cycles (jumpToSubroutine_cpu s _), _, jumpToSubroutine_log s _, rfl⟩
  | rts => exact ⟨congrArg Cpu.cycles (returnFromSubroutine_cpu s), _, returnFromSubroutine_log s, rfl⟩
  | rti => exact ⟨congrArg Cpu.cycles (returnFromInterrupt_cpu s), _, returnFromInterrupt_log s, rfl⟩
  | brk => exact ⟨congrArg Cpu.cycles (breakInterrupt_cpu s), _, breakInterrupt_log s, rfl⟩
  | pha => exact ⟨congrArg Cpu.cycles (pushValue_cpu s _), _, pushValue_log s _, rfl⟩
  | php => exact ⟨congrArg Cpu.cycles (pushValue_cpu s _), _, pushValue_log s _, rfl⟩
  | pla => exact ⟨congrArg Cpu.cycles (pullValue_cpu s _), _, pullValue_log s _, rfl⟩
  | plp => exact ⟨congrArg Cpu.cycles (pullValue_cpu s _), _, pullValue_log s _, rfl⟩
  | _ => cases long

set_option maxRecDepth 20000 in
theorem table_shortControl :
    ∀ op : Byte, ((opcodeTable op).all fun r => r.cls != .control || longControl r.mnemonic ||
      (r.mode == .implied || r.mode == .accumulator || r.mode == .relative)) = true := by
  decide

section
variable {i : Instr} {r : Row} (row : HasRow i r) (s : State)
include row

/-- A control entry outside the long sequences is implied, accumulator or a branch (R200, R210). -/
theorem HasRow.of_shortControl (cls : r.cls = .control) (short : longControl r.mnemonic = false) :
    (r.mode = .implied ∨ r.mode = .accumulator) ∨ r.mode = .relative := by
  have entry : opcodeTable i.opcode = some r := row.entry
  have t := table_shortControl i.opcode
  simpa [entry, cls, short] using t

theorem runRow_control_takes (cls : r.cls = .control) : Takes s (runRow r i.b1 i.b2 s) (cycleCount i s) := by
  by_cases relative : r.mode = .relative
  · rw [row.cycleCount_relative s relative, row.branchTaken_eq, runRow_relative row relative]
    exact branch_takes (branchCondition r.mnemonic).1 (branchCondition r.mnemonic).2 i.b1 s
  cases long : longControl r.mnemonic with
  | true =>
    rw [row.cycleCount_control s cls relative, runRow, cls]
    exact runControl_long_takes long r.mode i.b1 i.b2 s
  | false =>
    have implied := (row.of_shortControl cls long).resolve_right relative
    obtain ⟨cpu, -, log⟩ := runRow_implied s row cls long implied
    refine ⟨by rw [cpu, past], _, log, ?_⟩
    rw [row.cycleCount_control s cls relative, controlCycles_eq_two_iff.2 long]
    rfl

theorem runRow_read_takes (cls : r.cls = .read) : Takes s (runRow r i.b1 i.b2 s) (cycleCount i s) := by
  have cycles : (runRow r i.b1 i.b2 s).cpu.cycles = s.cpu.cycles + cycleCount i s := by rw [(runRow_read row cls s).1, past]
  rw [row.cycleCount_read s cls] at cycles ⊢
  refine ⟨cycles, ?_⟩
  by_cases imm : r.mode = .immediate
  · rw [runRow_immediate row imm, row.operand, imm]
    exact ⟨_, immediate_log s _ _, rfl⟩
  · have addr := hasAddress_of_modeOk row.modeOk (.inl ⟨cls, imm⟩)
    have operand := (row.operand s).trans (locate_reaches s addr i.b1 i.b2).resolved
    refine ⟨_, runRow_read_accessed row operand cls addr, ?_⟩
    rw [List.length_append, locateAccesses_length addr, operand, Nat.add_assoc, Resolved.crossed]
    cases (locate r.mode i.b1 i.b2 s).crossed <;> rfl

theorem runRow_write_takes (cls : r.cls = .write) : Takes s (runRow r i.b1 i.b2 s) (cycleCount i s) := by
  obtain ⟨addr, count⟩ := row.fixedCycles (.inl cls) s
  have operand := (row.operand s).trans (locate_reaches s addr i.b1 i.b2).resolved
  constructor
  · cases unstable : unstableEffect r.mnemonic with
    | none =>
      obtain ⟨_, -, cpu, -⟩ := runRow_write row cls unstable s
      rw [cpu, past]
    | some regs =>
      obtain ⟨_, _, _, -, cpu, -⟩ := runRow_unstable row cls unstable s
      rw [cpu, past]
  · refine ⟨_, runRow_write_accessed row operand cls, ?_⟩
    rw [count, cls, List.length_append, List.length_append, locateAccesses_length addr, AccessClass.baseCycles, Nat.add_assoc]
    cases r.mode.indexesBase <;> rfl

theorem runRow_rmw_takes (cls : r.cls = .rmw) : Takes s (runRow r i.b1 i.b2 s) (cycleCount i s) := by
  obtain ⟨addr, count⟩ := row.fixedCycles (.inr cls) s
  have operand := (row.operand s).trans (locate_reaches s addr i.b1 i.b2).resolved
  obtain ⟨_, -, cpu, -⟩ := runRow_rmw row cls s
  refine ⟨by rw [cpu, past], _, runRow_rmw_accessed row operand cls, ?_⟩
  rw [count, cls, List.length_append, List.length_append, locateAccesses_length addr, AccessClass.baseCycles, Nat.add_assoc]
  cases r.mode.indexesBase <;> rfl

/-- Every entry's run takes the cycles of R219, with one bus access in each. -/
theorem runRow_takes : Takes s (runRow r i.b1 i.b2 s) (cycleCount i s) := by
  cases cls : r.cls with
  | read => exact runRow_read_takes row s cls
  | write => exact runRow_write_takes row s cls
  | rmw => exact runRow_rmw_takes row s cls
  | control => exact runRow_control_takes row s cls
  | halt =>
    rw [row.cycleCount_halt s cls, runRow, cls]
    exact ⟨by rw [jam_cpu], _, jam_log s, rfl⟩

end

set_option maxRecDepth 20000 in
theorem cycles_eq_cycleGrid : ∀ op : Byte, (opcodeTable op).map (fun r => r.cycles) = lookupIn cycleGrid op := by
  decide

/-- Settles O27: the grid is the table's base counts (by evaluation), and every entry's run takes the count of R219. -/
theorem cycleCounts : Obligations.CycleCounts := by
  refine ⟨cycles_eq_cycleGrid, fun op => ?_, fun i s wf => ?_⟩
  · obtain ⟨r, entry, -, listed, -⟩ := opcodeTable_entry op
    rw [entry, Option.map_some, listed]
  · obtain ⟨r, row, e⟩ := exec_runs wf s
    obtain ⟨cycles, l, accessed, length⟩ := runRow_takes row s
    have count : s.cpu.cycles + l.reverse.length = (runRow r i.b1 i.b2 s).cpu.cycles := by rw [List.length_reverse, length, cycles]
    exact ⟨r, _, l.reverse, row.entry, e, by rw [cycles, row.cycleCount_eq s], accessed, count⟩

end Sys2Proof.Machine
end

section
/-! PROOFS. The decoder and the encoder (R66 to R69, R72). Two facts about the opcode map carry both round trips: the instruction
at every opcode, with any operand bytes, encodes to that opcode and as many of the bytes as its mode asks for; and the instruction
at a well-formed instruction's own opcode and bytes is that instruction (the per-instruction law `TableEntry`). -/

namespace Sys2Proof

/-! ## The instruction at an opcode -/

theorem lookupIn_map {α β : Type} (f : α → β) (map : List (List α)) (op : Byte) :
    lookupIn (map.map (·.map f)) op = (lookupIn map op).map f := by
  unfold lookupIn
  rw [List.getElem?_map]
  cases map[op.toNat / 16]? with
  | none => rfl
  | some row => exact List.getElem?_map

/-- The operand bytes of an instruction with `n` of them, a word operand put together and taken apart again (R69). -/
def operandBytes (b1 b2 : Byte) : Nat → List Byte
  | 0 => []
  | 1 => [b1]
  | _ => [loByte (mkWord b2 b1), hiByte (mkWord b2 b1)]

theorem encode_eq_cons (i : Instr) : encode i = i.opcode :: (encode i).tail := by cases i <;> rfl

theorem tail_encode_instrMap (b1 b2 : Byte) :
    (instrMap b1 b2).map (·.map fun i => (encode i).tail) =
      opcodeMap.map (·.map fun r => operandBytes b1 b2 r.mode.operandBytes) := by rfl

theorem opcode_instrMap (b1 b2 : Byte) :
    (instrMap b1 b2).map (·.map Instr.opcode) = (instrMap 0 0).map (·.map Instr.opcode) := by rfl

theorem opcodeOk_instrMap (b1 b2 : Byte) :
    (instrMap b1 b2).map (·.map Instr.opcodeOk) = opcodeMap.map (·.map fun _ => true) := by rfl

set_option maxRecDepth 20000 in
theorem opcode_instrMap_zero : ∀ op : Byte, lookupIn ((instrMap 0 0).map (·.map Instr.opcode)) op = some op := by decide

/-- Every opcode has an instruction, which encodes to the opcode and its mode's number of operand bytes. -/
theorem instrOf_entry (op b1 b2 : Byte) :
    ∃ r i, opcodeTable op = some r ∧ r.wellFormed = true ∧ instrOf op b1 b2 = some i ∧ i.opcodeOk = true ∧
      encode i = op :: operandBytes b1 b2 r.mode.operandBytes := by
  obtain ⟨r, entry, wf, -⟩ := Machine.opcodeTable_entry op
  have code : (instrOf op b1 b2).map Instr.opcode = some op := by
    rw [instrOf, ← lookupIn_map, opcode_instrMap, opcode_instrMap_zero]
  have tail : (instrOf op b1 b2).map (fun i => (encode i).tail) = some (operandBytes b1 b2 r.mode.operandBytes) := by
    rw [instrOf, ← lookupIn_map, tail_encode_instrMap, lookupIn_map]
    exact congrArg (Option.map _) entry
  have ok : (instrOf op b1 b2).map Instr.opcodeOk = some true := by
    rw [instrOf, ← lookupIn_map, opcodeOk_instrMap, lookupIn_map]
    exact congrArg (Option.map _) entry
  obtain ⟨i, at_op, code⟩ := Option.map_eq_some_iff.1 code
  rw [at_op, Option.map_some, Option.some.injEq] at tail ok
  exact ⟨r, i, entry, wf, at_op, ok, by rw [encode_eq_cons, code, tail]⟩

/-- The operand bytes of a list that has enough of them are its first bytes. -/
theorem operandBytes_getD {rest : List Byte} {m : Mode} (enough : m.operandBytes ≤ rest.length) :
    operandBytes (rest.getD 0 0) (rest.getD 1 0) m.operandBytes = rest.take m.operandBytes := by
  have atMostTwo : m.operandBytes = 0 ∨ m.operandBytes = 1 ∨ m.operandBytes = 2 := by cases m <;> decide
  rcases atMostTwo with n | n | n <;> rw [n] at enough ⊢
  · rfl
  · match rest, enough with
    | _ :: _, _ => rfl
  · match rest, enough with
    | b1 :: b2 :: _, _ => simp [operandBytes]

/-! ## Decoding -/

/-- What the decoder makes of an opcode and the bytes after it: they are too few, or the first of them are the operand. -/
theorem decode_cons (op : Byte) (rest : List Byte) :
    ∃ r, opcodeTable op = some r ∧ r.wellFormed = true ∧
      (rest.length < r.mode.operandBytes → decode (op :: rest) = .error .truncated) ∧
      (r.mode.operandBytes ≤ rest.length → ∃ i, decode (op :: rest) = .ok (i, rest.drop r.mode.operandBytes) ∧
        i.opcodeOk = true ∧ encode i = op :: rest.take r.mode.operandBytes) := by
  obtain ⟨r, i, entry, wf, at_op, ok, bytes⟩ := instrOf_entry op (rest.getD 0 0) (rest.getD 1 0)
  refine ⟨r, entry, wf, fun short => ?_, fun enough => ⟨i, ?_, ok, by rw [bytes, operandBytes_getD enough]⟩⟩
  · simp only [decode, decodeWith, entry, short, if_true]
  · simp only [decode, decodeWith, entry, Nat.not_lt.2 enough, if_false, at_op]

/-- An instruction is well-formed when it encodes to an opcode and the number of bytes that the opcode's entry asks for (R66). -/
theorem wellFormed_of_encode {i : Instr} {op : Byte} {operand : List Byte} {r : Row} (ok : i.opcodeOk = true)
    (bytes : encode i = op :: operand) (entry : opcodeTable op = some r) (wf : r.wellFormed = true)
    (len : operand.length = r.mode.operandBytes) : i.WellFormed := by
  have opcode : i.opcode = op := by rw [Instr.opcode, bytes]; rfl
  simp [Instr.WellFormed, Instr.wellFormedIn, ok, opcode, entry, wf, Row.length, Instr.length, bytes, len]

/-- The encoding of a well-formed instruction is its opcode and as many bytes as its entry asks for (R66). -/
theorem operand_length_of_wellFormed {i : Instr} (wf : i.WellFormed) {r : Row} (entry : opcodeTable i.opcode = some r) :
    (encode i).tail.length = r.mode.operandBytes := by
  have len := (Machine.hasRow_of_row wf entry).length
  rw [Instr.length, encode_eq_cons, List.length_cons] at len
  exact Nat.succ.inj len

open Sys2Proof.Laws Sys2Proof.Laws.TableEntry in
/-- A well-formed instruction is what the map gives for its own bytes (R68, R69). -/
theorem instrOf_self (i : Instr) : TableEntry.Statement i := by
  cases i
  exacts [brk, oraIndX _, jam _, sloIndX _, nopZp _ _, oraZp _, aslZp _, sloZp _, php, oraImm _, aslAcc, ancImm _ _, nopAbs _,
    oraAbs _, aslAbs _, sloAbs _, bpl _, oraIndY _, sloIndY _, nopZpX _ _, oraZpX _, aslZpX _, sloZpX _, clc, oraAbsY _,
    nopImp _, sloAbsY _, nopAbsX _ _, oraAbsX _, aslAbsX _, sloAbsX _, jsr _, andIndX _, rlaIndX _, bitZp _, andZp _,
    rolZp _, rlaZp _, plp, andImm _, rolAcc, bitAbs _, andAbs _, rolAbs _, rlaAbs _, bmi _, andIndY _, rlaIndY _, andZpX _,
    rolZpX _, rlaZpX _, sec, andAbsY _, rlaAbsY _, andAbsX _, rolAbsX _, rlaAbsX _, rti, eorIndX _, sreIndX _, eorZp _,
    lsrZp _, sreZp _, pha, eorImm _, lsrAcc, alrImm _, jmpAbs _, eorAbs _, lsrAbs _, sreAbs _, bvc _, eorIndY _, sreIndY _,
    eorZpX _, lsrZpX _, sreZpX _, cli, eorAbsY _, sreAbsY _, eorAbsX _, lsrAbsX _, sreAbsX _, rts, adcIndX _, rraIndX _,
    adcZp _, rorZp _, rraZp _, pla, adcImm _, rorAcc, arrImm _, jmpInd _, adcAbs _, rorAbs _, rraAbs _, bvs _, adcIndY _,
    rraIndY _, adcZpX _, rorZpX _, rraZpX _, sei, adcAbsY _, rraAbsY _, adcAbsX _, rorAbsX _, rraAbsX _, nopImm _ _,
    staIndX _, saxIndX _, styZp _, staZp _, stxZp _, saxZp _, dey, txa, aneImm _, styAbs _, staAbs _, stxAbs _, saxAbs _,
    bcc _, staIndY _, shaIndY _, styZpX _, staZpX _, stxZpY _, saxZpY _, tya, staAbsY _, txs, tasAbsY _, shyAbsX _,
    staAbsX _, shxAbsY _, shaAbsY _, ldyImm _, ldaIndX _, ldxImm _, laxIndX _, ldyZp _, ldaZp _, ldxZp _, laxZp _, tay,
    ldaImm _, tax, lxaImm _, ldyAbs _, ldaAbs _, ldxAbs _, laxAbs _, bcs _, ldaIndY _, laxIndY _, ldyZpX _, ldaZpX _,
    ldxZpY _, laxZpY _, clv, ldaAbsY _, tsx, lasAbsY _, ldyAbsX _, ldaAbsX _, ldxAbsY _, laxAbsY _, cpyImm _, cmpIndX _,
    dcpIndX _, cpyZp _, cmpZp _, decZp _, dcpZp _, iny, cmpImm _, dex, sbxImm _, cpyAbs _, cmpAbs _, decAbs _, dcpAbs _,
    bne _, cmpIndY _, dcpIndY _, cmpZpX _, decZpX _, dcpZpX _, cld, cmpAbsY _, dcpAbsY _, cmpAbsX _, decAbsX _, dcpAbsX _,
    cpxImm _, sbcIndX _, iscIndX _, cpxZp _, sbcZp _, incZp _, iscZp _, inx, sbcImm _, nop, usbcImm _, cpxAbs _, sbcAbs _,
    incAbs _, iscAbs _, beq _, sbcIndY _, iscIndY _, sbcZpX _, incZpX _, iscZpX _, sed, sbcAbsY _, iscAbsY _, sbcAbsX _,
    incAbsX _, iscAbsX _]

/-- Well-formed instructions with the same bytes are the same. -/
theorem encode_injective {i j : Instr} (wi : i.WellFormed) (wj : j.WellFormed) (bytes : encode i = encode j) : i = j := by
  have at_i := instrOf_self i wi
  have at_j := instrOf_self j wj
  rw [Instr.opcode, Instr.b1, Instr.b2, bytes] at at_i
  exact Option.some.inj (at_i.symm.trans at_j)

/-! ## The obligations -/

/-- Settles O42: `decode_cons` says which bytes the instruction encodes to, and those are the ones its entry asks for. -/
theorem encodeOfDecode : Obligations.EncodeOfDecode := by
  intro bytes rest i decoded
  match bytes, decoded with
  | op :: operand, decoded =>
    obtain ⟨r, entry, wf, short, enough⟩ := decode_cons op operand
    rcases Nat.lt_or_ge operand.length r.mode.operandBytes with few | many
    · rw [short few] at decoded
      cases decoded
    · obtain ⟨j, ran, ok, encoded⟩ := enough many
      obtain ⟨rfl, rfl⟩ := Prod.mk.inj (Except.ok.inj (ran.symm.trans decoded))
      refine ⟨wellFormed_of_encode ok encoded entry wf ?_, ?_⟩
      · rw [List.length_take, Nat.min_eq_left many]
      · rw [encoded, List.cons_append, List.take_append_drop]

/-- Settles O41: the bytes decode to a well-formed instruction with the same encoding, and the encoding is injective. -/
theorem decodeOfEncode : Obligations.DecodeOfEncode := by
  intro i rest wf
  obtain ⟨r, entry, rowWf, -, enough⟩ := decode_cons i.opcode ((encode i).tail ++ rest)
  have len := operand_length_of_wellFormed wf entry
  obtain ⟨j, decoded, ok, bytes⟩ := enough (by rw [List.length_append, len]; exact Nat.le_add_right _ _)
  rw [← len, List.drop_left] at decoded
  rw [← len, List.take_left] at bytes
  obtain rfl : j = i := encode_injective (wellFormed_of_encode ok bytes entry rowWf len) wf (bytes.trans (encode_eq_cons i).symm)
  rw [encode_eq_cons j, List.cons_append, decoded]

/-- Settles O43: every opcode has an entry, and the entry of a decoded instruction's opcode gives its length, mode and class. -/
theorem everyOpcodeDecodes : Obligations.EveryOpcodeDecodes := by
  refine ⟨fun b0 b1 b2 rest => ?_, fun op r1 r2 t1 t2 i j di dj => ?_⟩
  · obtain ⟨r, -, -, -, enough⟩ := decode_cons b0 (b1 :: b2 :: rest)
    have atMostTwo : r.mode.operandBytes ≤ 2 := by cases r.mode <;> decide
    obtain ⟨i, decoded, -, bytes⟩ := enough (atMostTwo.trans (Nat.le_add_left 2 rest.length))
    exact ⟨i, _, decoded, by rw [Instr.opcode, bytes]; rfl⟩
  · have row {k : Instr} {l t : List Byte} (decoded : decode (op :: l) = .ok (k, t)) :
        ∃ r, opcodeTable op = some r ∧ Machine.HasRow k r := by
      obtain ⟨wf, bytes⟩ := encodeOfDecode _ _ _ decoded
      rw [encode_eq_cons, List.cons_append] at bytes
      obtain ⟨r, entry, -⟩ := Machine.opcodeTable_entry k.opcode
      exact ⟨r, (List.cons.inj bytes).1 ▸ entry, Machine.hasRow_of_row wf entry⟩
    obtain ⟨r, ei, ri⟩ := row di
    obtain ⟨r', ej, rj⟩ := row dj
    obtain rfl := Option.some.inj (ei.symm.trans ej)
    exact ⟨ri.length.trans rj.length.symm, ri.mode.trans rj.mode.symm, ri.cls.trans rj.cls.symm, by rw [ri.length, ri.mode]⟩

/-- Settles O44: the decoder, run on each of the words. -/
theorem sampleWords : Obligations.SampleWords := by
  unfold Obligations.SampleWords
  decide

end Sys2Proof
end

section
/-! PROOFS. ARR (R179) and the unstable stores (R185 to R189): their effects in the claims' terms. ARR's tests on the nibbles of t
are written with masks in the claim and with division in the model. -/

namespace Sys2Proof.Machine

/-! ## Nibbles -/

theorem and_0F_toNat (b : Byte) : (b &&& 0x0F#8).toNat = b.toNat % 16 := by
  rw [BitVec.toNat_and]
  exact Nat.and_two_pow_sub_one_eq_mod b.toNat 4

theorem and_01_toNat (b : Byte) : (b &&& 0x01#8).toNat = b.toNat % 2 := by
  rw [BitVec.toNat_and]
  exact Nat.and_two_pow_sub_one_eq_mod b.toNat 1

theorem shiftRight_4_toNat (b : Byte) : (b >>> 4).toNat = b.toNat / 16 := by
  rw [BitVec.toNat_ushiftRight, Nat.shiftRight_eq_div_pow]

/-- The low-nibble fix-up of R179. -/
theorem arrLowFix_eq (t r : Byte) :
    arrLowFix t r =
      if (t &&& 0x0F#8).toNat + (t &&& 0x01#8).toNat > 5 then (r &&& 0xF0#8) ||| ((r + 6#8) &&& 0x0F#8) else r := by
  rw [and_0F_toNat, and_01_toNat]
  rfl

/-- The test of the high-nibble fix-up of R179. -/
theorem arrHighFixes_eq (t : Byte) : arrHighFixes t = decide ((t >>> 4).toNat + ((t >>> 4) &&& 0x01#8).toNat > 5) := by
  rw [and_01_toNat, shiftRight_4_toNat]
  rfl

/-! ## Effects -/

section
variable (m : Byte) {c : Cpu}

theorem readEffect_arr_binary (d : c.flag .d = false) :
    readEffect {} .arr m c =
      { c with
        a := arrRotated (c.a &&& m) (c.flag .c)
        p := setFlags c.p (nz (arrRotated (c.a &&& m) (c.flag .c)) ++
          [(.c, (arrRotated (c.a &&& m) (c.flag .c)).getLsbD 6),
            (.v, (arrRotated (c.a &&& m) (c.flag .c)).getLsbD 6 ^^ (arrRotated (c.a &&& m) (c.flag .c)).getLsbD 5)]) } := by
  rw [readEffect, Cpu.opArr, if_neg (by rw [d]; exact Bool.false_ne_true)]
  rfl

theorem readEffect_arr_decimal (d : c.flag .d = true) :
    readEffect {} .arr m c =
      { c with
        a := if arrHighFixes (c.a &&& m) then arrLowFix (c.a &&& m) (arrRotated (c.a &&& m) (c.flag .c)) + 0x60
          else arrLowFix (c.a &&& m) (arrRotated (c.a &&& m) (c.flag .c))
        p := setFlags c.p [(.n, c.flag .c), (.z, arrRotated (c.a &&& m) (c.flag .c) == 0),
          (.v, ((c.a &&& m) ^^^ arrRotated (c.a &&& m) (c.flag .c)).getLsbD 6), (.c, arrHighFixes (c.a &&& m))] } := by
  rw [readEffect, Cpu.opArr, if_pos d]
  simp only [Cpu.arrDecimal, Cpu.setFlag, setFlags, List.foldl]

end

/-- An unstable store in canonical memory (R185), whose register term and core are known. -/
theorem run_unstable {i : Instr} (wf : i.WellFormed) {m : Mnemonic} (hm : i.hasMnemonic m = true) (hc : classOf m = [.write])
    {regs : Cpu → Byte × Cpu} (hu : unstableEffect m = some regs) {s : State} (mem : Memory.wf s.bus.mem = true) :
    ∃ ea0 ea crossed, operandOf i s = .addr ea0 ea crossed ∧
      StoresByte i s (past i s (regs s.cpu).2) (shAddr (shValue (regs s.cpu).1 ea0) ea crossed) (shValue (regs s.cpu).1 ea0) := by
  obtain ⟨r, row, rfl, cls, e⟩ := run_class wf hm hc s
  obtain ⟨ea0, ea, crossed, operand, cpu, stored, log⟩ := runRow_unstable row cls hu s
  exact ⟨ea0, ea, crossed, operand, _, e, cpu, log, by rw [stored, memRead_memWrite_same mem],
    fun b hb => by rw [stored, memRead_memWrite_ne mem hb.symm]⟩

/-! ## The obligations -/

set_option maxRecDepth 20000 in
/-- Settles O23: ARR is of the read class, and D selects one of the two effects. -/
theorem rotateAndAnd : Obligations.RotateAndAnd := by
  refine ⟨by decide, fun i s wf arr => ⟨fun binary => ?_, fun decimal => ?_⟩⟩
  · exact completes_of_readEffect wf arr rfl (readEffect_arr_binary _ binary)
  · rw [← arrLowFix_eq, ← arrHighFixes_eq]
    have ran := completes_of_readEffect wf arr rfl (readEffect_arr_decimal (operandByte i s) decimal)
    simp only [arrHighFixes_eq, decide_eq_true_eq] at ran ⊢
    exact ran

set_option maxRecDepth 20000 in
/-- Settles O25: the four are unstable stores of the write class, whose register terms are read off `unstableEffect`. -/
theorem unstableStores : Obligations.UnstableStores :=
  ⟨by decide, by decide, by decide, by decide, fun _ _ wf mem =>
    ⟨fun sha => run_unstable wf sha rfl rfl mem, fun shx => run_unstable wf shx rfl rfl mem,
     fun shy => run_unstable wf shy rfl rfl mem, fun tas => run_unstable wf tas rfl rfl mem⟩⟩

end Sys2Proof.Machine
end

section
/-! PROOFS. What an effect may touch: the effects of R99 to R190 read and write A, X, Y, S and P alone. They commute therefore with
every change to the rest of the core, and leave the rest as it is. -/

namespace Sys2Proof.Machine

/-- The registers A, X, Y, S and P of `c`, in a core that is otherwise `e`. -/
def Cpu.withRegs (e c : Cpu) : Cpu := { e with a := c.a, x := c.x, y := c.y, s := c.s, p := c.p }

/-- `f` reads and writes the registers A, X, Y, S and P alone. -/
def OnRegs (f : Cpu → Cpu) : Prop := ∀ e c : Cpu, f (e.withRegs c) = e.withRegs (f c)

/-- `f` leaves all but the registers. -/
theorem OnRegs.eq_withRegs {f : Cpu → Cpu} (h : OnRegs f) (c : Cpu) : f c = c.withRegs (f c) := h c c

/-- `f` commutes with what leaves the registers. -/
theorem OnRegs.comm {f g : Cpu → Cpu} (hf : OnRegs f) (hg : ∀ e c, g (e.withRegs c) = (g e).withRegs c) (c : Cpu) :
    f (g c) = g (f c) := by
  calc f (g c) = f ((g c).withRegs c) := congrArg f (hg c c)
    _ = (g c).withRegs (f c) := hf (g c) c
    _ = g (c.withRegs (f c)) := (hg c (f c)).symm
    _ = g (f c) := congrArg g (hf.eq_withRegs c).symm

/-! ## The effects -/

theorem onRegs_readEffect (P : Params) (mn : Mnemonic) (m : Byte) : OnRegs (readEffect P mn m) := by
  intro e c
  cases mn with
  | arr =>
    show Cpu.opArr m (e.withRegs c) = e.withRegs (Cpu.opArr m c)
    have d : (e.withRegs c).flag .d = c.flag .d := rfl
    rw [Cpu.opArr, Cpu.opArr, d]
    split <;> rfl
  | _ => rfl

theorem modifyEffect_withRegs (mn : Mnemonic) (m : Byte) (e c : Cpu) :
    modifyEffect mn m (e.withRegs c) = ((modifyEffect mn m c).1, e.withRegs (modifyEffect mn m c).2) := by cases mn <;> rfl

theorem onRegs_modifyEffect (mn : Mnemonic) (m : Byte) : OnRegs fun c => (modifyEffect mn m c).2 :=
  fun e c => congrArg Prod.snd (modifyEffect_withRegs mn m e c)

theorem onRegs_impliedEffect (mn : Mnemonic) : OnRegs (impliedEffect mn) := fun e c => by cases mn <;> rfl

theorem onRegs_onAccumulator (mn : Mnemonic) : OnRegs (onAccumulator (modifyEffect mn)) := fun e c => by cases mn <;> rfl

theorem unstableEffect_withRegs {mn : Mnemonic} {regs : Cpu → Byte × Cpu} (h : unstableEffect mn = some regs) (e c : Cpu) :
    regs (e.withRegs c) = ((regs c).1, e.withRegs (regs c).2) := by
  cases mn <;> simp only [unstableEffect, reduceCtorEq, Option.some.injEq] at h <;> subst h <;> rfl

theorem onRegs_unstableEffect {mn : Mnemonic} {regs : Cpu → Byte × Cpu} (h : unstableEffect mn = some regs) :
    OnRegs fun c => (regs c).2 := fun e c => congrArg Prod.snd (unstableEffect_withRegs h e c)

theorem onRegs_opPla (v : Byte) : OnRegs (Cpu.opPla v) := fun _ _ => rfl
theorem onRegs_setP (v : Byte) : OnRegs (Cpu.setP v) := fun _ _ => rfl

end Sys2Proof.Machine
end

section
/-! PROOFS. The flags an instruction writes (R29 to R37): a table by mnemonic, and that the effects of every class keep the flags
outside it. Flags B and U stand nowhere in the table. -/

namespace Sys2Proof.Machine

/-- The flags that the instructions of a mnemonic may change (R30 to R37). -/
def writtenFlags : Mnemonic → List Flag
  | .lda | .ldx | .ldy | .and | .ora | .eor | .lax | .las | .ane | .lxa | .inc | .dec | .inx | .iny | .dex | .dey | .pla | .tax | .tay
  | .txa | .tya | .tsx => [.z, .n]
  | .cmp | .cpx | .cpy | .dcp | .sbx | .asl | .lsr | .rol | .ror | .slo | .rla | .sre | .anc | .alr => [.c, .z, .n]
  | .adc | .sbc | .rra | .isc | .arr => [.c, .v, .z, .n]
  | .bit => [.z, .v, .n]
  | .plp | .rti => [.c, .z, .i, .d, .v, .n]
  | .clc | .sec => [.c]
  | .cli | .sei | .brk => [.i]
  | .cld | .sed => [.d]
  | .clv => [.v]
  | _ => []

/-- No instruction changes the unused bit or the break bit (R34, R35). -/
theorem notMem_writtenFlags (mn : Mnemonic) : .u ∉ writtenFlags mn ∧ .b ∉ writtenFlags mn := by cases mn <;> decide

/-! ## The flag operations -/

section
variable {f : Flag} (c : Cpu)

/-- A list of flag writes keeps the flags outside a list that has all of the names written. -/
theorem keeps {l : List (Flag × Bool)} {names : List Flag} (h : f ∉ names) (sub : l.map Prod.fst ⊆ names) {d : Cpu}
    (p : d.p = setFlags c.p l) : d.flag f = c.flag f :=
  (congrArg (getFlag · f) p).trans (getFlag_setFlags_of_notMem (fun named => h (sub named)) c.p)

/-- A pull of P keeps flag B, and flag U where it is 1 (R27). -/
theorem flag_setP_ne (h : f ∉ [Flag.c, .z, .i, .d, .v, .n]) (unused : c.flag .u = true) (v : Byte) : (c.setP v).flag f = c.flag f := by
  have pulled := getFlag_setPValue c.p v f
  cases f with
  | b => exact pulled
  | u => exact pulled.trans unused.symm
  | c | z | i | d | v | n => simp at h

end

/-! ## The effects -/

section
variable {mn : Mnemonic} {f : Flag} (h : f ∉ writtenFlags mn) (c : Cpu)
include h

theorem readEffect_flag (P : Params) (m : Byte) : (readEffect P mn m c).flag f = c.flag f := by
  cases mn with
  | lda | ldx | ldy | and | ora | eor | lax | las | ane | lxa => exact keeps c (l := nz _) h (List.Subset.refl _) rfl
  | cmp | cpx | cpy | sbx => exact keeps c (l := [(.c, _), (.z, _), (.n, _)]) h (List.Subset.refl _) rfl
  | adc | sbc => exact keeps c (l := aluFlags _) h (List.Subset.refl _) rfl
  | bit => exact keeps c (l := [(.z, _), (.v, _), (.n, _)]) h (List.Subset.refl _) rfl
  | anc => exact keeps c (l := nz _ ++ [(.c, _)]) h (by decide : [Flag.z, .n, .c] ⊆ _) rfl
  | alr => exact keeps c (l := (.c, _) :: nz _) h (List.Subset.refl _) rfl
  | arr =>
    cases d : c.flag .d with
    | false =>
      exact keeps c h (by decide : [Flag.z, .n, .c, .v] ⊆ _) (congrArg Cpu.p (readEffect_arr_binary m d))
    | true =>
      exact keeps c h (by decide : [Flag.n, .z, .v, .c] ⊆ _) (congrArg Cpu.p (readEffect_arr_decimal m d))
  | _ => rfl

theorem modifyEffect_flag (m : Byte) : (modifyEffect mn m c).2.flag f = c.flag f := by
  cases mn with
  | inc | dec => exact keeps c (l := nz _) h (List.Subset.refl _) rfl
  | asl | lsr | rol | ror => exact keeps c (l := (.c, _) :: nz _) h (List.Subset.refl _) rfl
  | slo => exact keeps c (l := (.c, _) :: nz _) h (List.Subset.refl _) (congrArg (fun e => e.2.p) (modifyEffect_slo m c))
  | rla => exact keeps c (l := (.c, _) :: nz _) h (List.Subset.refl _) (congrArg (fun e => e.2.p) (modifyEffect_rla m c))
  | sre => exact keeps c (l := (.c, _) :: nz _) h (List.Subset.refl _) (congrArg (fun e => e.2.p) (modifyEffect_sre m c))
  | rra => exact keeps c (l := aluFlags _) h (List.Subset.refl _) (congrArg (fun e => e.2.p) (modifyEffect_rra m c))
  | isc => exact keeps c (l := aluFlags _) h (List.Subset.refl _) (congrArg (fun e => e.2.p) (modifyEffect_isc m c))
  | dcp => exact keeps c (l := compareFlags _ _) h (List.Subset.refl _) (congrArg (fun e => e.2.p) (modifyEffect_dcp m c))
  | _ => rfl

theorem impliedEffect_flag : (impliedEffect mn c).flag f = c.flag f := by
  cases mn with
  | tax | tay | txa | tya | tsx | inx | iny | dex | dey => exact keeps c (l := nz _) h (List.Subset.refl _) rfl
  | clc | cli | cld | clv => exact keeps c (l := [(_, false)]) h (List.Subset.refl _) rfl
  | sec | sei | sed => exact keeps c (l := [(_, true)]) h (List.Subset.refl _) rfl
  | _ => rfl

/-- On the accumulator an effect writes the flags it writes on a byte of memory. -/
theorem onAccumulator_flag : (onAccumulator (modifyEffect mn) c).flag f = c.flag f := modifyEffect_flag h c c.a

end

theorem unstableEffect_p {mn : Mnemonic} {regs : Cpu → Byte × Cpu} (h : unstableEffect mn = some regs) (c : Cpu) :
    (regs c).2.p = c.p := by
  cases mn <;> simp only [unstableEffect, reduceCtorEq, Option.some.injEq] at h <;> subst h <;> rfl

end Sys2Proof.Machine
end

section
/-! PROOFS. One cycle of the engine (R193, R197): what every cycle leaves in the core, its one bus access, and the shape of the
sequences: an opcode fetch or a discarded read first, and last a cycle that ends the sequence. -/

namespace Sys2Proof.Machine

/-! ## What every cycle does -/

section
variable {β : Type} (P : Params) (B : Bus β) (mn : Mnemonic) (cy : Cycle) (s : Sys β)

/-- Every cycle makes one access: a read, or a write (R46, R193). -/
theorem perform_access :
    ∃ a, (cy.perform P B mn s).1.bus = (B.peek s.bus a).2 ∨ ∃ v, (cy.perform P B mn s).1.bus = B.poke s.bus a v := by
  cases cy with
  | writeData =>
    rw [Cycle.perform]
    cases unstableEffect mn with
    | none => exact ⟨_, .inr ⟨_, rfl⟩⟩
    | some regs => exact ⟨_, .inr ⟨_, rfl⟩⟩
  | modifyDummy | modifyWrite | pushValue | pushPcHi | pushPcLo | pushBreakStatus | pushInterruptStatus =>
    exact ⟨_, .inr ⟨_, rfl⟩⟩
  | readUncorrected =>
    refine ⟨s.cpu.latches.ea0, .inl ?_⟩
    rw [Cycle.perform]
    cases h : s.cpu.latches.crossed <;> simp [Sys.read, Sys.mapCpu, h]
  | branchTake =>
    refine ⟨s.cpu.pc, .inl ?_⟩
    simp only [Cycle.perform, Sys.read, Sys.mapCpu, Cpu.latch]
    split <;> rfl
  | _ => exact ⟨_, .inl rfl⟩

/-- The last cycle of a two-cycle implied instruction: a shift is of A (R123, R200). -/
theorem perform_implied_cpu :
    (Cycle.implied.perform P B mn s).1.cpu =
      if mn ∈ [.asl, .lsr, .rol, .ror] then onAccumulator (modifyEffect mn) s.cpu else impliedEffect mn s.cpu := by
  cases mn <;> rfl

/-- What a cycle keeps of core `c` in core `d`: everything but the registers, PC and the latches it fills. -/
structure KeepsEngine (cy : Cycle) (c d : Cpu) : Prop where
  phase : d.phase = c.phase
  micro : d.micro = c.micro
  invalid : d.invalid = c.invalid
  cycles : d.cycles = c.cycles
  instructions : d.instructions = c.instructions
  opcode : cy ≠ .fetchOpcode → d.latches.opcode = c.latches.opcode
  vector : d.latches.vector = c.latches.vector ∨ d.latches.vector = Config.irqVector
  unused : c.flag .u = true → d.flag .u = true

/-- An effect on the registers that keeps the unused bit keeps the engine. -/
theorem OnRegs.keepsEngine {f : Cpu → Cpu} (h : OnRegs f) {c : Cpu} (unused : c.flag .u = true → (f c).flag .u = true)
    (cy : Cycle) : KeepsEngine cy c (f c) := by
  have e := h.eq_withRegs c
  refine ⟨?_, ?_, ?_, ?_, ?_, fun _ => ?_, .inl ?_, unused⟩ <;> rw [e] <;> rfl

/-- A move of PC before the effect, and an access to the bus, change nothing here. -/
theorem KeepsEngine.of_incPc {cy : Cycle} {c d : Cpu} (h : KeepsEngine cy c.incPc d) : KeepsEngine cy c d :=
  ⟨h.phase, h.micro, h.invalid, h.cycles, h.instructions, h.opcode, h.vector, h.unused⟩

theorem readEffect_keepsEngine (m : Byte) (c : Cpu) : KeepsEngine cy c (readEffect P mn m c) :=
  (onRegs_readEffect P mn m).keepsEngine (readEffect_flag (notMem_writtenFlags mn).1 c P m).trans cy

theorem modifyEffect_keepsEngine (m : Byte) (c : Cpu) : KeepsEngine cy c (modifyEffect mn m c).2 :=
  (onRegs_modifyEffect mn m).keepsEngine (modifyEffect_flag (notMem_writtenFlags mn).1 c m).trans cy

theorem impliedEffect_keepsEngine (c : Cpu) : KeepsEngine cy c (impliedEffect mn c) :=
  (onRegs_impliedEffect mn).keepsEngine (impliedEffect_flag (notMem_writtenFlags mn).1 c).trans cy

theorem onAccumulator_keepsEngine (c : Cpu) : KeepsEngine cy c (onAccumulator (modifyEffect mn) c) :=
  (onRegs_onAccumulator mn).keepsEngine (onAccumulator_flag (notMem_writtenFlags mn).1 c).trans cy

theorem unstableEffect_keepsEngine {regs : Cpu → Byte × Cpu} (h : unstableEffect mn = some regs) (c : Cpu) :
    KeepsEngine cy c (regs c).2 :=
  (onRegs_unstableEffect h).keepsEngine (congrArg (getFlag · .u) (unstableEffect_p h c)).trans cy

theorem opPla_keepsEngine (v : Byte) (c : Cpu) : KeepsEngine cy c (c.opPla v) :=
  (onRegs_opPla v).keepsEngine (c := c) (flag_setNZ v { c with a := v } .u).trans cy

theorem setP_keepsEngine (v : Byte) (c : Cpu) : KeepsEngine cy c (c.setP v) :=
  (onRegs_setP v).keepsEngine (fun _ => getFlag_setPValue c.p v .u) cy

/-- Every cycle leaves the phase, the index, the counters and the fault, and only the opcode fetch fills the opcode's latch. -/
theorem perform_keepsEngine : KeepsEngine cy s.cpu (cy.perform P B mn s).1.cpu := by
  cases cy with
  | implied =>
    rw [perform_implied_cpu]
    split
    · exact onAccumulator_keepsEngine _ _ _
    · exact impliedEffect_keepsEngine _ _ _
  | immediate => exact (readEffect_keepsEngine P mn _ _ _).of_incPc
  | readData => exact readEffect_keepsEngine P mn _ _ _
  | readUncorrected =>
    cases crossed : s.cpu.latches.crossed with
    | true =>
      simp only [Cycle.perform, Sys.read, crossed, if_true]
      exact ⟨rfl, rfl, rfl, rfl, rfl, fun _ => rfl, .inl rfl, id⟩
    | false =>
      simp only [Cycle.perform, Sys.read, crossed, Bool.false_eq_true, if_false]
      exact readEffect_keepsEngine P mn _ _ _
  | writeData =>
    rw [Cycle.perform]
    cases unstable : unstableEffect mn with
    | none => exact ⟨rfl, rfl, rfl, rfl, rfl, fun _ => rfl, .inl rfl, id⟩
    | some regs => exact unstableEffect_keepsEngine _ _ unstable _
  | modifyWrite => exact modifyEffect_keepsEngine _ _ _ _
  | branchTake =>
    simp only [Cycle.perform, Sys.read, Sys.mapCpu, Cpu.latch]
    split <;> exact ⟨rfl, rfl, rfl, rfl, rfl, fun _ => rfl, .inl rfl, id⟩
  | pullValue =>
    show KeepsEngine _ s.cpu ((if mn = .plp then Cpu.opPlp _ else Cpu.opPla _) s.cpu)
    split
    · exact setP_keepsEngine _ _ _
    · exact opPla_keepsEngine _ _ _
  | pullStatus =>
    obtain ⟨h1, h2, h3, h4, h5, h6, h7, h8⟩ := setP_keepsEngine .pullStatus (B.peek s.bus (stackAddr s.cpu.s)).1 s.cpu
    exact ⟨h1, h2, h3, h4, h5, h6, h7, h8⟩
  | vectorLo => exact ⟨rfl, rfl, rfl, rfl, rfl, fun _ => rfl, .inl rfl, (flag_setFlag .i .u true _).trans⟩
  | pushBreakStatus => exact ⟨rfl, rfl, rfl, rfl, rfl, fun _ => rfl, .inr rfl, id⟩
  | fetchOpcode => exact ⟨rfl, rfl, rfl, rfl, rfl, fun h => absurd rfl h, .inl rfl, id⟩
  | _ => exact ⟨rfl, rfl, rfl, rfl, rfl, fun _ => rfl, .inl rfl, id⟩

end

end Sys2Proof.Machine
end

section
/-! PROOFS. Sequences in flight (R192 to R197): an instruction's or an interrupt's. The shape of every sequence makes each cycle but
the last leave a cycle to come, so a call of `advance` performs the next cycle and a step performs the rest of the sequence. -/

namespace Sys2Proof.Machine

/-! ## The shape of the sequences -/

/-- The cycles that end their sequence whatever the state (R200 to R217). -/
def Cycle.ends : Cycle → Bool
  | .implied | .immediate | .readData | .writeData | .modifyWrite | .branchFix | .jumpAbsolute | .jumpHi | .pushValue | .pullValue
  | .jsrTarget | .pullPcHiLast | .returnInc | .vectorHi => true
  | _ => false

theorem perform_ends {β : Type} {cy : Cycle} (h : cy.ends = true) (P : Params) (B : Bus β) (mn : Mnemonic) (s : Sys β) :
    (cy.perform P B mn s).2 = true := by
  cases cy with
  | writeData =>
    rw [Cycle.perform]
    cases unstableEffect mn <;> rfl
  | implied | immediate | readData | modifyWrite | branchFix | jumpAbsolute | jumpHi | pushValue | pullValue | jsrTarget
  | pullPcHiLast | returnInc | vectorHi => rfl
  | _ => cases h

/-- A sequence after its first cycle: its last cycle ends it, and no cycle before that fetches an opcode. -/
def isRest : List Cycle → Bool
  | [] => false
  | [cy] => cy.ends
  | cy :: rest => cy != .fetchOpcode && isRest rest

theorem isRest_cons {cy : Cycle} {rest : List Cycle} (h : isRest (cy :: rest) = true) :
    cy ≠ .fetchOpcode ∧ (rest = [] ∧ cy.ends = true ∨ isRest rest = true) := by
  cases rest with
  | nil => exact ⟨(by rintro rfl; cases h), .inl ⟨rfl, h⟩⟩
  | cons next rest =>
    rw [isRest, Bool.and_eq_true, bne_iff_ne] at h
    · exact ⟨h.1, .inr h.2⟩
    · nofun

theorem isRest_drop {cycles : List Cycle} (h : isRest cycles = true) {k : Nat} (lt : k < cycles.length) :
    isRest (cycles.drop k) = true := by
  induction k generalizing cycles with
  | zero => exact h
  | succ k ih =>
    cases cycles with
    | nil => cases h
    | cons cy rest =>
      obtain ⟨-, (⟨rfl, -⟩ | more)⟩ := isRest_cons h
      · simp at lt
      · exact ih more (Nat.lt_of_succ_lt_succ lt)

/-- A whole sequence: the opcode fetch, and at most seven more cycles (R199, R219). -/
def isSequence : List Cycle → Bool
  | [] => false
  | cy :: rest => cy == .fetchOpcode && isRest rest && decide (rest.length ≤ 7)

theorem isSequence_sequenceOf {r : Row} (h : r.cls ≠ .halt) : isSequence (sequenceOf r) = true := by
  obtain ⟨mn, mode, cycles, boundary, illegal, cls⟩ := r
  cases cls with
  | halt => exact absurd rfl h
  | control =>
    show isSequence (controlSequence mn mode) = true
    fun_cases controlSequence mn mode <;> rfl
  | read => cases mode <;> cases boundary <;> rfl
  | write | rmw => cases mode <;> rfl

theorem sequenceOf_eq_cons {r : Row} (h : r.cls ≠ .halt) :
    ∃ rest, sequenceOf r = .fetchOpcode :: rest ∧ isRest rest = true ∧ rest.length ≤ 7 := by
  have shape := isSequence_sequenceOf h
  cases cycles : sequenceOf r with
  | nil => rw [cycles] at shape; cases shape
  | cons cy rest =>
    rw [cycles, isSequence, Bool.and_eq_true, Bool.and_eq_true, beq_iff_eq, decide_eq_true_eq] at shape
    obtain ⟨⟨rfl, ends⟩, len⟩ := shape
    exact ⟨rest, rfl, ends, len⟩

/-- The phases of an instruction's cycles (R192). -/
theorem phaseOf_instruction (cls : AccessClass) (cy : Cycle) :
    phaseOf cls cy = .fetching ∨ phaseOf cls cy = .resolvingAddress ∨ phaseOf cls cy = .executing := by
  cases cy with
  | fetchOpcode => exact .inl rfl
  | fetchB1 | fetchZeropage | indexZeropage | fetchAbsolute | fetchAbsoluteIndexed | indexPointer | pointerLo | pointerHi
  | basePointerLo | basePointerHi | readUncorrected | dummyUncorrected => by_cases h : cls = .control <;> simp [phaseOf, h]
  | _ => exact .inr (.inr rfl)

/-! ## Sequences in flight -/

/-- What can be in flight: the instruction of a table entry, or an interrupt. -/
inductive Flight where
  | instruction (r : Row)
  | interrupt

namespace Flight

/-- The cycles of the sequence (R197). -/
def cycles : Flight → List Cycle
  | instruction r => sequenceOf r
  | interrupt => interruptCycles

/-- The mnemonic its cycles are performed for. -/
def mnemonic : Flight → Mnemonic
  | instruction r => r.mnemonic
  | interrupt => .nop

/-- The phase while a cycle is performed (R192). -/
def phase : Flight → Cycle → Phase
  | instruction r => phaseOf r.cls
  | interrupt => fun _ => .handlingInterrupt

/-- What the end of the sequence does to the core: an instruction retires, an interrupt does not (R196, R233). -/
def finish : Flight → Cpu → Cpu
  | instruction _ => fun c => c.toIdle.retire
  | interrupt => Cpu.toIdle

/-- One more cycle of the sequence. -/
def cycle (F : Flight) (cy : Cycle) (s : Sys Ram) : Sys Ram :=
  let t := cy.perform {} ramBus F.mnemonic s
  if t.2 then t.1.mapCpu F.finish else t.1.mapCpu (Cpu.goOn (F.phase cy))

/-- The cycles of a sequence up to the one that ends it, each counted (R193). -/
def run (F : Flight) : List Cycle → Sys Ram → Sys Ram
  | [], s => s
  | cy :: rest, s =>
    let t := cy.perform {} ramBus F.mnemonic (s.mapCpu Cpu.tick)
    if t.2 then t.1.mapCpu F.finish else F.run rest (t.1.mapCpu (Cpu.goOn (F.phase cy)))

section
variable {F : Flight} {cy : Cycle} {s : Sys Ram}

theorem cycle_of_done (h : (cy.perform {} ramBus F.mnemonic s).2 = true) :
    F.cycle cy s = (cy.perform {} ramBus F.mnemonic s).1.mapCpu F.finish := if_pos h

theorem cycle_of_not_done (h : (cy.perform {} ramBus F.mnemonic s).2 = false) :
    F.cycle cy s = (cy.perform {} ramBus F.mnemonic s).1.mapCpu (Cpu.goOn (F.phase cy)) :=
  if_neg (by rw [h]; exact Bool.false_ne_true)

theorem run_cons_of_done (h : (cy.perform {} ramBus F.mnemonic (s.mapCpu Cpu.tick)).2 = true) (rest : List Cycle) :
    F.run (cy :: rest) s = F.cycle cy (s.mapCpu Cpu.tick) := by
  rw [cycle_of_done h]
  exact if_pos h

theorem run_cons_of_not_done (h : (cy.perform {} ramBus F.mnemonic (s.mapCpu Cpu.tick)).2 = false) (rest : List Cycle) :
    F.run (cy :: rest) s = F.run rest (F.cycle cy (s.mapCpu Cpu.tick)) := by
  rw [cycle_of_not_done h]
  exact if_neg (by rw [h]; exact Bool.false_ne_true)

end

/-- The core is in the middle of the sequence: its phase, and for an instruction its latched opcode, say so (R192). -/
def Holds : Flight → Cpu → Prop
  | instruction r, c =>
    opcodeTable c.latches.opcode = some r ∧ (c.phase = .fetching ∨ c.phase = .resolvingAddress ∨ c.phase = .executing)
  | interrupt, c => c.phase = .handlingInterrupt

variable {F : Flight}

theorem instructionCycle_eq (r : Row) (cy : Cycle) (s : Sys Ram) :
    instructionCycle {} ramBus r cy s = (instruction r).cycle cy s := by
  unfold instructionCycle
  split <;> rename_i performed <;> simp [cycle, mnemonic, finish, phase, performed, Sys.mapCpu]

theorem interruptCycle_eq (cy : Cycle) (s : Sys Ram) : interruptCycle {} ramBus cy s = interrupt.cycle cy s := by
  unfold interruptCycle
  split <;> rename_i performed <;> simp [cycle, mnemonic, finish, phase, performed]

theorem phase_ne_idle (F : Flight) (cy : Cycle) : F.phase cy ≠ .idle := by
  cases F with
  | interrupt => nofun
  | instruction r => obtain h | h | h := phaseOf_instruction r.cls cy <;> simp [phase, h]

theorem finish_phase (F : Flight) (c : Cpu) : (F.finish c).phase = .idle := by cases F <;> rfl

/-- A cycle that is not the opcode fetch, and does not end the sequence, leaves the core in the middle of it. -/
theorem holds_goOn {c d : Cpu} (h : F.Holds c) {cy : Cycle} (keeps : KeepsEngine cy c d) (hcy : cy ≠ .fetchOpcode) :
    F.Holds (d.goOn (F.phase cy)) := by
  cases F with
  | interrupt => rfl
  | instruction r =>
    exact ⟨(congrArg opcodeTable (keeps.opcode hcy)).trans h.1, phaseOf_instruction r.cls cy⟩

/-- A call of `advance` in the middle of a sequence counts a cycle and performs it (R193). -/
theorem advanceOn_eq {s : Sys Ram} (h : F.Holds s.cpu) (live : s.cpu.invalid = none) {cy : Cycle}
    (next : F.cycles[s.cpu.micro]? = some cy) :
    advanceOn {} ramBus s = (.ok, F.cycle cy (s.mapCpu Cpu.tick)) := by
  have at_tick : F.cycles[(s.mapCpu Cpu.tick).cpu.micro]? = some cy := next
  rw [advanceOn, live]
  show advanceCounted {} ramBus (s.mapCpu Cpu.tick) = _
  cases F with
  | interrupt =>
    have ph : (s.mapCpu Cpu.tick).cpu.phase = .handlingInterrupt := h
    simp only [cycles] at at_tick
    simp only [advanceCounted, ph, at_tick, interruptCycle_eq]
  | instruction r =>
    obtain ⟨entry, ph⟩ := h
    have flight : (s.mapCpu Cpu.tick).cpu.inFlight {} = some (r, sequenceOf r) := congrArg (Option.map _) entry
    simp only [cycles] at at_tick
    have ph : (s.mapCpu Cpu.tick).cpu.phase = .fetching ∨ (s.mapCpu Cpu.tick).cpu.phase = .resolvingAddress ∨
      (s.mapCpu Cpu.tick).cpu.phase = .executing := ph
    rcases ph with ph | ph | ph <;> simp only [advanceCounted, ph, flight, at_tick, instructionCycle_eq]

end Flight

end Sys2Proof.Machine
end

section
/-! PROOFS. Steps of the engine (R194, R195): the first cycle at a boundary puts a sequence in flight, or halts; a step performs the
whole of the sequence, or the rest of the one in flight. -/

namespace Sys2Proof.Machine

/-! ## `step` in terms of `advance` -/

section
variable {s t u : Sys Ram} (advance : advanceOn {} ramBus s = (.ok, t))
include advance

theorem stepOn_of_idle (idle : t.cpu.phase = .idle) (fuel : Nat) : ∃ n, stepOn {} ramBus (fuel + 1) s = (.ok, n, t) :=
  ⟨_, by rw [stepOn, advance]; exact if_neg fun more => more.2 idle⟩

theorem stepOn_of_ne_idle (more : t.cpu.phase ≠ .idle) {fuel n : Nat} (later : stepOn {} ramBus fuel t = (.ok, n, u)) :
    ∃ n, stepOn {} ramBus (fuel + 1) s = (.ok, n, u) :=
  ⟨n + (t.cpu.cycles - s.cpu.cycles), by
    rw [stepOn, advance]
    exact (if_pos ⟨rfl, more⟩).trans (by rw [later])⟩

end

/-! ## A step with a sequence in flight -/

namespace Flight

variable {F : Flight}

theorem getElem?_of_drop {cycles rest : List Cycle} {k : Nat} {cy : Cycle} (next : cycles.drop k = cy :: rest) :
    cycles[k]? = some cy := by
  rw [← List.head?_drop, next, List.head?_cons]

/-- After a cycle that does not end the sequence the core is in the middle of it, with the next cycle to come. -/
theorem goesOn {s : Sys Ram} (h : F.Holds s.cpu) {cy : Cycle} {rest : List Cycle} (next : F.cycles.drop s.cpu.micro = cy :: rest)
    (ends : isRest (cy :: rest) = true) (goes : (cy.perform {} ramBus F.mnemonic (s.mapCpu Cpu.tick)).2 = false) :
    isRest rest = true ∧ F.Holds (F.cycle cy (s.mapCpu Cpu.tick)).cpu ∧
      F.cycles.drop (F.cycle cy (s.mapCpu Cpu.tick)).cpu.micro = rest := by
  obtain ⟨notFetch, (⟨-, last⟩ | more)⟩ := isRest_cons ends
  · rw [perform_ends last] at goes
    cases goes
  · have keeps := perform_keepsEngine {} ramBus F.mnemonic cy (s.mapCpu Cpu.tick)
    have tick : F.Holds (s.mapCpu Cpu.tick).cpu := by cases F <;> exact h
    have micro : (F.cycle cy (s.mapCpu Cpu.tick)).cpu.micro = s.cpu.micro + 1 := by
      rw [cycle_of_not_done goes]
      exact congrArg (· + 1) keeps.micro
    refine ⟨more, ?_, by rw [micro, ← List.tail_drop, next, List.tail_cons]⟩
    rw [cycle_of_not_done goes]
    exact holds_goOn tick keeps notFetch

theorem cycle_invalid (F : Flight) (cy : Cycle) (s : Sys Ram) : (F.cycle cy s).cpu.invalid = s.cpu.invalid := by
  have keeps := perform_keepsEngine {} ramBus F.mnemonic cy s
  cases done : (cy.perform {} ramBus F.mnemonic s).2 with
  | true => rw [cycle_of_done done, ← keeps.invalid]; cases F <;> rfl
  | false => rw [cycle_of_not_done done, ← keeps.invalid]; rfl

/-- A step in the middle of a sequence performs the rest of it (R195). -/
theorem stepOn_eq {rest : List Cycle} (ends : isRest rest = true) {fuel : Nat} (enough : rest.length ≤ fuel) {s : Sys Ram}
    (h : F.Holds s.cpu) (live : s.cpu.invalid = none) (next : F.cycles.drop s.cpu.micro = rest) :
    ∃ n, stepOn {} ramBus fuel s = (.ok, n, F.run rest s) := by
  induction rest generalizing s fuel with
  | nil => cases ends
  | cons cy rest ih =>
    obtain ⟨fuel, rfl⟩ : ∃ k, fuel = k + 1 := Nat.exists_eq_add_one_of_ne_zero (by rintro rfl; cases enough)
    have advance := advanceOn_eq h live (getElem?_of_drop next)
    cases done : (cy.perform {} ramBus F.mnemonic (s.mapCpu Cpu.tick)).2 with
    | true =>
      rw [run_cons_of_done done]
      exact stepOn_of_idle advance (by rw [cycle_of_done done]; exact finish_phase F _) fuel
    | false =>
      obtain ⟨more, holds, later⟩ := goesOn h next ends done
      obtain ⟨n, step⟩ := ih more (Nat.le_of_succ_le_succ enough) holds ((cycle_invalid F cy _).trans live) later
      rw [run_cons_of_not_done done]
      exact stepOn_of_ne_idle advance (by rw [cycle_of_not_done done]; exact phase_ne_idle F cy) step

/-- A step whose first cycle puts a sequence in flight performs the whole of it (R195). -/
theorem stepOn_whole {s s₀ : Sys Ram} {cy : Cycle} (advance : advanceOn {} ramBus s = (.ok, F.cycle cy (s₀.mapCpu Cpu.tick)))
    {rest : List Cycle} (cycles : F.cycles = cy :: rest) (ends : isRest rest = true) (len : rest.length ≤ 7)
    (goes : (cy.perform {} ramBus F.mnemonic (s₀.mapCpu Cpu.tick)).2 = false) (micro : s₀.cpu.micro = 0)
    (h : F.Holds (F.cycle cy (s₀.mapCpu Cpu.tick)).cpu) (live : s₀.cpu.invalid = none) :
    ∃ n, stepOn {} ramBus maxCycles s = (.ok, n, F.run F.cycles s₀) := by
  have keeps := perform_keepsEngine {} ramBus F.mnemonic cy (s₀.mapCpu Cpu.tick)
  have one : (F.cycle cy (s₀.mapCpu Cpu.tick)).cpu.micro = 1 := by
    rw [cycle_of_not_done goes]
    exact congrArg (· + 1) (keeps.micro.trans micro)
  obtain ⟨n, step⟩ := stepOn_eq ends len h ((cycle_invalid F cy _).trans live) (by rw [one, cycles]; rfl)
  rw [cycles, run_cons_of_not_done goes]
  exact stepOn_of_ne_idle advance (by rw [cycle_of_not_done goes]; exact phase_ne_idle F cy) step

end Flight

/-! ## The first cycle at a boundary -/

section
variable {β : Type} (P : Params) (B : Bus β) {s : Sys β} (idle : s.cpu.phase = .idle) (live : s.cpu.invalid = none)
include idle live

/-- An interrupt is taken at a boundary (R194). -/
theorem advanceOn_of_event {e : Event} (taken : s.cpu.boundaryEvent = some e) :
    advanceOn P B s = startInterrupt P B e.vector ((s.mapCpu Cpu.tick).mapCpu (Cpu.acknowledge e)) := by
  have phase : (s.mapCpu Cpu.tick).cpu.phase = .idle := idle
  have event : (s.mapCpu Cpu.tick).cpu.boundaryEvent = some e := taken
  simp only [advanceOn, live, advanceCounted, phase, event]

/-- An instruction is started at a boundary where no interrupt is taken (R194). -/
theorem advanceOn_of_no_event (quiet : s.cpu.boundaryEvent = none) :
    advanceOn P B s = startInstruction P B (s.mapCpu Cpu.tick) := by
  have phase : (s.mapCpu Cpu.tick).cpu.phase = .idle := idle
  have event : (s.mapCpu Cpu.tick).cpu.boundaryEvent = none := quiet
  simp only [advanceOn, live, advanceCounted, phase, event]

end

/-- The core that an interrupt's first cycle starts from: its latch is cleared, and its vector is kept (R217, R227). -/
def Cpu.accept (e : Event) (c : Cpu) : Cpu := (c.acknowledge e).latch fun l => { l with vector := e.vector }

theorem accept_tick (e : Event) (c : Cpu) : c.tick.accept e = (c.accept e).tick := by cases e <;> rfl

section
variable {s : Sys Ram} (idle : s.cpu.phase = .idle) (live : s.cpu.invalid = none)
include idle live

/-- An interrupt's first cycle puts its sequence in flight (R217). -/
theorem advanceOn_interrupt {e : Event} (taken : s.cpu.boundaryEvent = some e) :
    advanceOn {} ramBus s = (.ok, Flight.interrupt.cycle .dummyPc ((s.mapCpu (Cpu.accept e)).mapCpu Cpu.tick)) := by
  rw [advanceOn_of_event {} ramBus idle live taken, startInterrupt, Flight.interruptCycle_eq]
  exact congrArg (fun c => (CallResult.ok, Flight.interrupt.cycle .dummyPc (⟨c, s.bus⟩ : Sys Ram))) (accept_tick e s.cpu)

variable (quiet : s.cpu.boundaryEvent = none) {r : Row} (entry : opcodeTable (memRead s.bus.mem s.cpu.pc) = some r)
include quiet entry

/-- The opcode fetch puts an instruction in flight (R199). -/
theorem advanceOn_instruction (cls : r.cls ≠ .halt) :
    advanceOn {} ramBus s = (.ok, (Flight.instruction r).cycle .fetchOpcode (s.mapCpu Cpu.tick)) := by
  have found : opcodeTable (Cycle.perform {} ramBus .nop .fetchOpcode (s.mapCpu Cpu.tick)).1.cpu.latches.opcode = some r := entry
  simp only [advanceOn_of_no_event {} ramBus idle live quiet, startInstruction, found, cls, if_false]
  rfl

/-- The opcode fetch of JAM halts the core (R218). -/
theorem advanceOn_halt (cls : r.cls = .halt) :
    advanceOn {} ramBus s = (.halted, ⟨s.cpu.tick.incPc.toHalted, (s.bus.read s.cpu.pc).2⟩) := by
  have found : opcodeTable (Cycle.perform {} ramBus .nop .fetchOpcode (s.mapCpu Cpu.tick)).1.cpu.latches.opcode = some r := entry
  simp only [advanceOn_of_no_event {} ramBus idle live quiet, startInstruction, found, cls, if_true]
  rfl

end

end Sys2Proof.Machine
end

section
/-! PROOFS. Soundness of the engine (R28, R35, R192, R197): from a sound state every call of `advance` answers a next state, and that
state is sound; and a step completes within its eight calls. -/

namespace Sys2Proof.Machine

/-! ## When phase, index and latches agree -/

section
variable {c : Cpu}

theorem engineOk_of_atRest (phase : c.phase = .idle ∨ c.phase = .halted) (rest : c.AtRest) : c.EngineOk := by
  obtain h | h := phase <;> simpa [Cpu.EngineOk, h] using rest

theorem engineOk_of_inInterrupt (phase : c.phase = .handlingInterrupt) (inside : c.InInterrupt) : c.EngineOk := by
  simpa [Cpu.EngineOk, phase] using inside

theorem engineOk_of_inInstruction (phase : c.phase = .fetching ∨ c.phase = .resolvingAddress ∨ c.phase = .executing)
    (inside : c.InInstruction) : c.EngineOk := by
  obtain h | h | h := phase <;> simpa [Cpu.EngineOk, h] using inside

end

theorem lt_length_of_isRest_drop {cycles : List Cycle} {k : Nat} (h : isRest (cycles.drop k) = true) : k < cycles.length := by
  by_contra past
  rw [List.drop_eq_nil_of_le (Nat.not_lt.1 past)] at h
  cases h

namespace Flight

/-- In a sound core a sequence that is not at rest is in flight, with cycles to come. -/
theorem exists_of_engineOk {c : Cpu} (ok : c.EngineOk) (notIdle : c.phase ≠ .idle) (notHalted : c.phase ≠ .halted) :
    ∃ F : Flight, F.Holds c ∧ isRest (F.cycles.drop c.micro) = true ∧
      (F = interrupt → c.latches.vector = Config.nmiVector ∨ c.latches.vector = Config.irqVector) := by
  obtain ⟨-, inInterrupt, inInstruction⟩ := ok
  have split : c.phase = .handlingInterrupt ∨ (c.phase = .fetching ∨ c.phase = .resolvingAddress ∨ c.phase = .executing) := by
    cases h : c.phase <;> simp_all
  obtain ph | ph := split
  · obtain ⟨low, high, vector⟩ := inInterrupt ph
    obtain ⟨k, micro⟩ : ∃ k, c.micro = k + 1 := Nat.exists_eq_add_one_of_ne_zero (by omega)
    refine ⟨interrupt, ph, ?_, fun _ => vector⟩
    rw [micro] at high ⊢
    exact isRest_drop (cycles := interruptCycles.tail) (by decide) (Nat.lt_of_succ_lt_succ high)
  · obtain ⟨low, high, last⟩ := inInstruction ph
    obtain ⟨k, micro⟩ : ∃ k, c.micro = k + 1 := Nat.exists_eq_add_one_of_ne_zero (by omega)
    cases entry : opcodeTable c.latches.opcode with
    | none => simp [Cpu.flightLength, Cpu.inFlight, entry] at high
    | some r =>
      have high : c.micro < (sequenceOf r).length := by simpa [Cpu.flightLength, Cpu.inFlight, entry] using high
      have cls : r.cls ≠ .halt := by
        intro halt
        have one : (sequenceOf r).length = 1 := by rw [sequenceOf, halt]; rfl
        omega
      obtain ⟨rest, cycles, ends, -⟩ := sequenceOf_eq_cons cls
      refine ⟨instruction r, ⟨entry, ph⟩, ?_, nofun⟩
      show isRest ((sequenceOf r).drop c.micro) = true
      rw [cycles, micro] at high ⊢
      exact isRest_drop ends (Nat.lt_of_succ_lt_succ high)

variable {F : Flight} {cy : Cycle}

/-- In the middle of a sequence, after one of its cycles and with more to come, the engine agrees with itself. -/
theorem engineOk_goOn {d : Cpu} (holds : F.Holds (d.goOn (F.phase cy))) (performed : F.cycles[d.micro]? = some cy)
    (more : isRest (F.cycles.drop (d.micro + 1)) = true)
    (vector : F = interrupt → d.latches.vector = Config.nmiVector ∨ d.latches.vector = Config.irqVector) :
    (d.goOn (F.phase cy)).EngineOk := by
  have inside := lt_length_of_isRest_drop more
  cases F with
  | interrupt => exact engineOk_of_inInterrupt rfl ⟨Nat.le_add_left 1 d.micro, inside, vector rfl⟩
  | instruction r =>
    obtain ⟨entry, ph⟩ := holds
    have flight : (d.goOn (phaseOf r.cls cy)).inFlight {} = some (r, sequenceOf r) := congrArg (Option.map _) entry
    have performed : (sequenceOf r)[d.micro]? = some cy := performed
    refine engineOk_of_inInstruction ph ⟨Nat.le_add_left 1 d.micro, ?_, ?_⟩
    · have inside : d.micro + 1 < (sequenceOf r).length := inside
      simpa [Cpu.flightLength, phase, flight] using inside
    · simp [Cpu.lastPhase, phase, flight, performed]

/-- A cycle leaves a sound core, whether it ends its sequence or not. -/
theorem cycle_sound {s : Sys Ram} (unused : s.cpu.flag .u = true) (live : s.cpu.invalid = none)
    (performed : F.cycles[s.cpu.micro]? = some cy)
    (vector : F = interrupt → s.cpu.latches.vector = Config.nmiVector ∨ s.cpu.latches.vector = Config.irqVector)
    (goes : (cy.perform {} ramBus F.mnemonic s).2 = false →
      F.Holds (F.cycle cy s).cpu ∧ isRest (F.cycles.drop (s.cpu.micro + 1)) = true) :
    (F.cycle cy s).cpu.Sound := by
  have keeps := perform_keepsEngine {} ramBus F.mnemonic cy s
  have bit := keeps.unused unused
  cases done : (cy.perform {} ramBus F.mnemonic s).2 with
  | true =>
    refine ⟨?_, ?_, (cycle_invalid F cy s).trans live⟩ <;> rw [cycle_of_done done]
    · cases F <;> exact bit
    · exact engineOk_of_atRest (.inl (finish_phase F _)) (by cases F <;> exact ⟨rfl, rfl⟩)
  | false =>
    obtain ⟨holds, more⟩ := goes done
    refine ⟨?_, ?_, (cycle_invalid F cy s).trans live⟩ <;> rw [cycle_of_not_done done] at *
    · exact bit
    · refine engineOk_goOn holds (by rw [keeps.micro, performed]) (by rw [keeps.micro, more]) fun i => ?_
      obtain same | irq := keeps.vector
      · rw [same]
        exact vector i
      · exact .inr irq

/-- A cycle keeps memory canonical: it reads, or it writes one byte. -/
theorem cycle_wf (F : Flight) (cy : Cycle) {s : Sys Ram} (wf : Memory.wf s.bus.mem = true) :
    Memory.wf (F.cycle cy s).bus.mem = true := by
  have bus : (F.cycle cy s).bus = (cy.perform {} ramBus F.mnemonic s).1.bus := by
    unfold cycle
    dsimp only
    split <;> rfl
  rw [bus]
  obtain ⟨a, read | ⟨v, write⟩⟩ := perform_access {} ramBus F.mnemonic cy s
  · rw [read]
    exact wf
  · rw [write]
    exact memWrite_wf wf a v

end Flight

/-! ## The first cycle of a sequence -/

theorem accept_unused (e : Event) (c : Cpu) : (c.accept e).flag .u = c.flag .u := by cases e <;> rfl
theorem accept_micro (e : Event) (c : Cpu) : (c.accept e).micro = c.micro := by cases e <;> rfl
theorem accept_invalid (e : Event) (c : Cpu) : (c.accept e).invalid = c.invalid := by cases e <;> rfl

/-- Every interrupt has one of the two vectors (R57, R233). -/
theorem accept_vector (e : Event) (c : Cpu) :
    (c.accept e).latches.vector = Config.nmiVector ∨ (c.accept e).latches.vector = Config.irqVector := by
  cases e with
  | nmi => exact .inl rfl
  | _ => exact .inr rfl

namespace Flight

/-- After its opcode fetch an instruction is in flight (R199). -/
theorem holds_fetchOpcode {s : Sys Ram} {r : Row} (entry : opcodeTable (memRead s.bus.mem s.cpu.pc) = some r) :
    (instruction r).Holds ((instruction r).cycle .fetchOpcode s).cpu := ⟨entry, .inl rfl⟩

theorem fetchOpcode_sound {s : Sys Ram} (unused : s.cpu.flag .u = true) (live : s.cpu.invalid = none) (micro : s.cpu.micro = 0)
    {r : Row} (entry : opcodeTable (memRead s.bus.mem s.cpu.pc) = some r) (cls : r.cls ≠ .halt) :
    ((instruction r).cycle .fetchOpcode s).cpu.Sound := by
  obtain ⟨rest, seq, ends, -⟩ := sequenceOf_eq_cons cls
  have seq : (instruction r).cycles = .fetchOpcode :: rest := seq
  refine cycle_sound unused live (by rw [micro, seq]; rfl) nofun fun _ => ⟨holds_fetchOpcode entry, ?_⟩
  rw [micro, seq]
  exact ends

theorem dummyPc_sound {s : Sys Ram} (unused : s.cpu.flag .u = true) (live : s.cpu.invalid = none) (micro : s.cpu.micro = 0)
    (vector : s.cpu.latches.vector = Config.nmiVector ∨ s.cpu.latches.vector = Config.irqVector) :
    (interrupt.cycle .dummyPc s).cpu.Sound :=
  cycle_sound unused live (by rw [micro]; rfl) (fun _ => vector) fun _ => ⟨rfl, by rw [micro]; rfl⟩

end Flight

/-! ## One call of `advance` -/

theorem advanceOn_of_halted {s : Sys Ram} (halted : s.cpu.phase = .halted) (live : s.cpu.invalid = none) :
    advanceOn {} ramBus s = (.halted, s.mapCpu Cpu.tick) := by
  have phase : (s.mapCpu Cpu.tick).cpu.phase = .halted := halted
  simp only [advanceOn, live, advanceCounted, phase]

/-- From a sound state a call of `advance` answers that it ran or that the core is halted, and leaves a sound state. -/
theorem advanceOn_sound {s : Sys Ram} (sound : s.toState.Sound) :
    ∃ r t, advanceOn {} ramBus s = (r, t) ∧ (r = .ok ∨ r = .halted) ∧ t.toState.Sound := by
  obtain ⟨⟨unused, engine, live⟩, wf⟩ := sound
  by_cases idle : s.cpu.phase = .idle
  · obtain ⟨micro, -⟩ := engine.1 (.inl idle)
    cases event : s.cpu.boundaryEvent with
    | some e =>
      exact ⟨_, _, advanceOn_interrupt idle live event, .inl rfl,
        Flight.dummyPc_sound ((accept_unused e _).trans unused) ((accept_invalid e _).trans live) ((accept_micro e _).trans micro)
          (accept_vector e _), Flight.cycle_wf _ _ wf⟩
    | none =>
      obtain ⟨r, entry, -⟩ := opcodeTable_entry (memRead s.bus.mem s.cpu.pc)
      by_cases cls : r.cls = .halt
      · exact ⟨_, _, advanceOn_halt idle live event entry cls, .inr rfl,
          ⟨unused, engineOk_of_atRest (.inr rfl) ⟨rfl, rfl⟩, live⟩, wf⟩
      · exact ⟨_, _, advanceOn_instruction idle live event entry cls, .inl rfl,
          Flight.fetchOpcode_sound (s := s.mapCpu Cpu.tick) unused live micro entry cls, Flight.cycle_wf _ _ wf⟩
  by_cases halted : s.cpu.phase = .halted
  · exact ⟨_, _, advanceOn_of_halted halted live, .inr rfl, ⟨unused, engine, live⟩, wf⟩
  · obtain ⟨F, holds, ends, vector⟩ := Flight.exists_of_engineOk engine idle halted
    cases next : F.cycles.drop s.cpu.micro with
    | nil =>
      rw [show s.toState.cpu.micro = s.cpu.micro from rfl, next] at ends
      cases ends
    | cons cy rest =>
      rw [show s.toState.cpu.micro = s.cpu.micro from rfl, next] at ends
      have performed := Flight.getElem?_of_drop next
      refine ⟨_, _, Flight.advanceOn_eq holds live performed, .inl rfl,
        Flight.cycle_sound (s := s.mapCpu Cpu.tick) unused live performed vector fun goes => ?_, Flight.cycle_wf _ _ wf⟩
      obtain ⟨more, holds, -⟩ := Flight.goesOn holds next ends goes
      refine ⟨holds, ?_⟩
      show isRest (F.cycles.drop (s.cpu.micro + 1)) = true
      rw [← List.tail_drop, next]
      exact more

/-- What a call that ran or found the core halted answers. -/
theorem outcomeOf_of_ok {r : CallResult} (h : r = .ok ∨ r = .halted) (t : Sys Ram) : outcomeOf r t = .next t.toState := by
  obtain rfl | rfl := h <;> rfl

/-- Settles O51: `advanceOn_sound`, as the machine's own call. -/
theorem advanceKeepsSound : Obligations.AdvanceKeepsSound := by
  intro s sound
  obtain ⟨r, t, call, ran, sound'⟩ := advanceOn_sound (s := s.toSys) sound
  exact ⟨t.toState, by rw [advance, call]; exact outcomeOf_of_ok ran t, sound'⟩

/-! ## A whole step -/

/-- A step of the engine that answers a next state answers a sound one. -/
theorem stepOn_sound {fuel : Nat} {s : Sys Ram} (sound : s.toState.Sound) {r : CallResult} {n : Nat} {t : Sys Ram}
    (step : stepOn {} ramBus fuel s = (r, n, t)) : t.toState.Sound := by
  induction fuel generalizing s r n t with
  | zero =>
    obtain ⟨-, -, rfl⟩ : _ ∧ _ ∧ s = t := by simpa [stepOn] using step
    exact sound
  | succ fuel ih =>
    obtain ⟨r', t', call, -, sound'⟩ := advanceOn_sound sound
    rw [stepOn, call] at step
    dsimp only at step
    by_cases more : r' = .ok ∧ t'.cpu.phase ≠ .idle
    · rw [if_pos more] at step
      rcases later : stepOn {} ramBus fuel t' with ⟨r₂, n₂, t₂⟩
      rw [later] at step
      cases step
      exact ih sound' later
    · rw [if_neg more] at step
      cases step
      exact sound'

end Sys2Proof.Machine
end

section
/-! PROOFS. One call of `advance` on any collaborator, table and parameters (R193): it counts one cycle and makes one access, and
counts an instruction only as it ends one (R41, R196). -/

namespace Sys2Proof.Machine

section
variable {β : Type} (P : Params) (B : Bus β)

/-- From `s` to `t` there is one bus access and no cycle counted, and an instruction only where it ended. -/
structure OneAccess (s t : Sys β) : Prop where
  access : ∃ a, t.bus = (B.peek s.bus a).2 ∨ ∃ v, t.bus = B.poke s.bus a v
  cycles : t.cpu.cycles = s.cpu.cycles
  instructions : t.cpu.instructions = s.cpu.instructions ∨ t.cpu.instructions = s.cpu.instructions + 1 ∧ t.cpu.phase = .idle

theorem instructionCycle_oneAccess (row : Row) (cy : Cycle) (s : Sys β) : OneAccess B s (instructionCycle P B row cy s) := by
  have access := perform_access P B row.mnemonic cy s
  have keeps := perform_keepsEngine P B row.mnemonic cy s
  unfold instructionCycle
  split <;> rename_i performed <;> rw [performed] at access keeps
  · exact ⟨access, keeps.cycles, .inr ⟨congrArg (· + 1) keeps.instructions, rfl⟩⟩
  · exact ⟨access, keeps.cycles, .inl keeps.instructions⟩

theorem interruptCycle_oneAccess (cy : Cycle) (s : Sys β) : OneAccess B s (interruptCycle P B cy s) := by
  have access := perform_access P B .nop cy s
  have keeps := perform_keepsEngine P B .nop cy s
  unfold interruptCycle
  split <;> rename_i performed <;> rw [performed] at access keeps <;>
    exact ⟨access, keeps.cycles, .inl keeps.instructions⟩

theorem startInstruction_oneAccess (s : Sys β) : OneAccess B s (startInstruction P B s).2 := by
  unfold startInstruction
  dsimp only
  split
  · exact ⟨⟨_, .inl rfl⟩, rfl, .inl rfl⟩
  · split <;> exact ⟨⟨_, .inl rfl⟩, rfl, .inl rfl⟩

theorem startInterrupt_oneAccess (e : Event) (s : Sys β) :
    OneAccess B s (startInterrupt P B e.vector (s.mapCpu (Cpu.acknowledge e))).2 := by
  obtain ⟨access, cycles, instructions⟩ := interruptCycle_oneAccess P B .dummyPc
    ((s.mapCpu (Cpu.acknowledge e)).mapCpu (Cpu.latch fun l => { l with vector := e.vector }))
  cases e <;> exact ⟨access, cycles, instructions⟩

/-- A call that is not halted makes one access, or finds no cycle to perform and does nothing. -/
theorem advanceCounted_cases {s : Sys β} (notHalted : s.cpu.phase ≠ .halted) :
    OneAccess B s (advanceCounted P B s).2 ∨ advanceCounted P B s = (.noSuchCycle, s) := by
  fun_cases advanceCounted P B s
  case case1 halted => exact absurd halted notHalted
  case case2 e _ => exact .inl (startInterrupt_oneAccess P B e s)
  case case3 => exact .inl (startInstruction_oneAccess P B s)
  case case4 cy _ => exact .inl (interruptCycle_oneAccess P B cy s)
  case case7 row _ _ cy _ | case10 row _ _ cy _ | case13 row _ _ cy _ => exact .inl (instructionCycle_oneAccess P B row cy s)
  all_goals exact .inr rfl

theorem advanceCounted_halted {s : Sys β} (halted : s.cpu.phase = .halted) : advanceCounted P B s = (.halted, s) := by
  simp only [advanceCounted, halted]

/-- On a core that is not frozen a call counts its cycle first (R193). -/
theorem advanceOn_of_live {s : Sys β} (live : s.cpu.invalid = none) :
    advanceOn P B s = advanceCounted P B (s.mapCpu Cpu.tick) := by
  simp only [advanceOn, live]

theorem advanceCounted_cycles (s : Sys β) : (advanceCounted P B s).2.cpu.cycles = s.cpu.cycles := by
  by_cases halted : s.cpu.phase = .halted
  · rw [advanceCounted_halted P B halted]
  obtain one | none := advanceCounted_cases P B halted
  · exact one.cycles
  · rw [none]

/-- What a call counts (R41, R193, R196). -/
theorem advanceOn_counts {s t : Sys β} (live : s.cpu.invalid = none) {r : CallResult} (call : advanceOn P B s = (r, t)) :
    t.cpu.cycles = s.cpu.cycles + 1 ∧
      (t.cpu.instructions = s.cpu.instructions ∨ t.cpu.instructions = s.cpu.instructions + 1 ∧ t.cpu.phase = .idle) := by
  rw [advanceOn_of_live P B live] at call
  have cycles := advanceCounted_cycles P B (s.mapCpu Cpu.tick)
  rw [call] at cycles
  refine ⟨cycles, ?_⟩
  by_cases halted : (s.mapCpu Cpu.tick).cpu.phase = .halted
  · rw [advanceCounted_halted P B halted] at call
    cases call
    exact .inl rfl
  · have counts := advanceCounted_cases P B halted
    rw [call] at counts
    obtain one | none := counts
    · exact one.instructions
    · cases none
      exact .inl rfl

end

/-- Settles O28: `advanceCounted_cycles` for the cycle, and `advanceCounted_cases` for the access. -/
theorem oneAccessPerCycle : Obligations.OneAccessPerCycle := by
  intro β P B s live
  rcases call : advanceOn P B.recorded s with ⟨r, t⟩
  rw [advanceOn_of_live P B.recorded live] at call
  have cycles := advanceCounted_cycles P B.recorded (s.mapCpu Cpu.tick)
  have halts := advanceCounted_halted P B.recorded (s := s.mapCpu Cpu.tick)
  have access := advanceCounted_cases P B.recorded (s := s.mapCpu Cpu.tick)
  rw [call] at cycles halts access
  refine ⟨cycles, fun halted => ?_, fun notHalted inside => ?_⟩
  · cases halts halted
    exact ⟨rfl, rfl⟩
  · obtain ⟨⟨a, read | ⟨v, write⟩⟩, -⟩ | outside := access notHalted
    · exact ⟨_, congrArg Prod.snd read⟩
    · exact ⟨_, congrArg Prod.snd write⟩
    · exact absurd (congrArg Prod.fst outside) inside

end Sys2Proof.Machine
end

section
/-! PROOFS. The meanings agree with the engine (R195, D2): the cycles of an instruction's sequence, performed one after the other from
a boundary, are the instruction's meaning; so are those of an interrupt's sequence. -/

namespace Sys2Proof.Machine

/-- At rest: at a boundary with nothing in flight. -/
structure Cpu.Resting (c : Cpu) : Prop where
  idle : c.phase = .idle
  micro : c.micro = 0
  latches : c.latches = {}

theorem Cpu.Resting.toIdle {c : Cpu} (h : c.Resting) : c.toIdle = c := by
  obtain ⟨a, x, y, s, pc, p, phase, micro, latches, nmi, irq, cycles, instructions, invalid⟩ := c
  obtain ⟨rfl, rfl, rfl⟩ : phase = .idle ∧ micro = 0 ∧ latches = {} := ⟨h.idle, h.micro, h.latches⟩
  rfl

/-- The operand bytes at PC + 1 and PC + 2 (R66). -/
def State.codeB1 (s : State) : Byte := memRead s.bus.mem (s.cpu.pc + 1)
def State.codeB2 (s : State) : Byte := memRead s.bus.mem (s.cpu.pc + 1 + 1)

/-- After the uncorrected read, where there is one: what is left is the same with or without an index. -/
def Located.afterUncorrected (l : Located) : Located := { l with indexed := false, st := l.uncorrectedRead }

namespace Flight

/-! ## Address cycles -/

/-- A core in flight after the address cycles `l`: the meaning's core but for the engine's, the addresses latched. -/
structure Reached (l : Located) (t : Sys Ram) : Prop where
  cpu : t.cpu.toIdle = l.st.cpu
  bus : t.bus = l.st.bus
  ea0 : t.cpu.latches.ea0 = l.ea0
  ea : t.cpu.latches.ea = l.ea
  crossed : t.cpu.latches.crossed = l.crossed

/-- The address cycles go on whatever the state. -/
def goes : Cycle → Bool
  | .fetchOpcode | .fetchB1 | .fetchZeropage | .indexZeropage _ | .fetchAbsolute | .fetchAbsoluteIndexed _ | .indexPointer
  | .pointerLo | .pointerHi | .basePointerLo | .basePointerHi => true
  | _ => false

theorem perform_goes {cy : Cycle} (h : goes cy = true) (mn : Mnemonic) (s : Sys Ram) :
    (cy.perform {} ramBus mn s).2 = false := by
  cases cy with
  | fetchOpcode | fetchB1 | fetchZeropage | indexZeropage | fetchAbsolute | fetchAbsoluteIndexed | indexPointer | pointerLo
  | pointerHi | basePointerLo | basePointerHi => rfl
  | _ => cases h

/-- The state after cycles that go on. -/
def after (F : Flight) : List Cycle → Sys Ram → Sys Ram
  | [], s => s
  | cy :: rest, s => F.after rest ((cy.perform {} ramBus F.mnemonic (s.mapCpu Cpu.tick)).1.mapCpu (Cpu.goOn (F.phase cy)))

theorem run_append (F : Flight) {cycles : List Cycle} (h : cycles.all goes = true) (rest : List Cycle) (s : Sys Ram) :
    F.run (cycles ++ rest) s = F.run rest (F.after cycles s) := by
  induction cycles generalizing s with
  | nil => rfl
  | cons cy cycles ih =>
    rw [List.all_cons, Bool.and_eq_true] at h
    have go := perform_goes h.1 F.mnemonic (s.mapCpu Cpu.tick)
    rw [List.cons_append, run_cons_of_not_done go, ih h.2, cycle_of_not_done go]
    rfl

theorem addressCyclesOf_goes (mode : Mode) : (addressCyclesOf mode).all goes = true := by cases mode <;> rfl

/-- A pointer in page 0 has its high byte in page 0 (R95, R96). -/
theorem samePageNext_zeroPage (b : Byte) : samePageNext (zeroPage b) = zeroPage (b + 1) := by
  apply BitVec.eq_of_toNat_eq
  simp only [samePageNext, mkWord_toNat, hiByte_toNat, BitVec.toNat_add, loByte_toNat, zeroPage_toNat]
  omega

/-- The address cycles of a mode latch the addresses that the meaning's address cycles find (R202 to R208). -/
theorem reached_addressCycles (r : Row) {mode : Mode} (has : hasAddress mode = true) {s : State} (rest : s.cpu.Resting) :
    Reached (locate mode s.codeB1 s.codeB2 s)
      ((instruction r).after (addressCyclesOf mode) s.toSys) := by
  obtain ⟨⟨a, x, y, sp, pc, p, phase, micro, latches, nmi, irq, cycles, instructions, invalid⟩, bus⟩ := s
  obtain ⟨rfl, rfl, rfl⟩ : phase = .idle ∧ micro = 0 ∧ latches = {} := ⟨rest.idle, rest.micro, rest.latches⟩
  cases mode with
  | implied | accumulator | immediate | relative | indirect => cases has
  | indirectX | indirectY =>
    simp only [locate, locIndirectX, locIndirectY, ← samePageNext_zeroPage]
    exact ⟨rfl, rfl, rfl, rfl, rfl⟩
  | _ => exact ⟨rfl, rfl, rfl, rfl, rfl⟩

/-! ## Data cycles -/

/-- An effect on the registers comes out the same whether or not the engine's latches are cleared first. -/
theorem toIdle_of_onRegs {f : Cpu → Cpu} (h : OnRegs f) (c : Cpu) : (f c).toIdle = f c.toIdle :=
  (h.comm (fun _ _ => rfl) c).symm

theorem writeEffect_withRegs (mn : Mnemonic) (e c : Cpu) : writeEffect mn (e.withRegs c) = writeEffect mn c := by
  cases mn <;> rfl

/-- Nor does the byte that comes with it: the engine counts the cycle of the write before the effect, the meaning after it. -/
theorem toIdle_eq_tick {f : Cpu → Byte × Cpu} (h : ∀ e c : Cpu, f (e.withRegs c) = ((f c).1, e.withRegs (f c).2)) {c d : Cpu}
    (same : c.toIdle = d.tick) : ((f c).1, (f c).2.toIdle) = ((f d).1, (f d).2.tick) := by
  have idle : f c.toIdle = ((f c).1, (f c).2.toIdle) :=
    (h c.toIdle c).trans (congrArg (fun e => ((f c).1, Cpu.toIdle e)) (congrArg Prod.snd (h c c)).symm)
  have tick : f d.tick = ((f d).1, (f d).2.tick) :=
    (h d.tick d).trans (congrArg (fun e => ((f d).1, Cpu.tick e)) (congrArg Prod.snd (h d d)).symm)
  rw [← idle, same, tick]

theorem writeEffect_eq_tick (mn : Mnemonic) {c d : Cpu} (same : c.toIdle = d.tick) : writeEffect mn c = writeEffect mn d := by
  calc writeEffect mn c = writeEffect mn c.toIdle := (writeEffect_withRegs mn c.toIdle c).symm
    _ = writeEffect mn d.tick := by rw [same]
    _ = writeEffect mn d := writeEffect_withRegs mn d.tick d

/-- The last cycle of a sequence. -/
theorem run_last {F : Flight} {cy : Cycle} (h : cy.ends = true) (s : Sys Ram) :
    F.run [cy] s = (cy.perform {} ramBus F.mnemonic (s.mapCpu Cpu.tick)).1.mapCpu F.finish := by
  have done := perform_ends h {} ramBus F.mnemonic (s.mapCpu Cpu.tick)
  rw [run_cons_of_done done, cycle_of_done done]

/-- The store of an ordinary write (R102). -/
theorem perform_writeData {mn : Mnemonic} (h : unstableEffect mn = none) (s : Sys Ram) :
    (Cycle.writeData.perform {} ramBus mn s).1 = s.write ramBus s.cpu.latches.ea (writeEffect mn s.cpu) := by
  rw [Cycle.perform, h]

/-- The store of SHA, SHX, SHY and TAS (R185). -/
theorem perform_writeData_unstable {mn : Mnemonic} {regs : Cpu → Byte × Cpu} (h : unstableEffect mn = some regs) (s : Sys Ram) :
    (Cycle.writeData.perform {} ramBus mn s).1 =
      (⟨(regs s.cpu).2, s.bus⟩ : Sys Ram).write ramBus
        (shAddr (shValue (regs s.cpu).1 s.cpu.latches.ea0) s.cpu.latches.ea s.cpu.latches.crossed)
        (shValue (regs s.cpu).1 s.cpu.latches.ea0) := by
  rw [Cycle.perform, h]

section
variable {r : Row} {l : Located} {t : Sys Ram} (at_l : Reached l t)
include at_l

/-- The data cycles of a read whose extra cycle is spent on a page cross only (R205, R208). -/
theorem run_readUncorrected :
    (instruction r).run [.readUncorrected, .readData] t = (readAt (readEffect {} r.mnemonic) l).toSys := by
  obtain ⟨⟨a, x, y, sp, pc, p, phase, micro, ⟨op, b1, b2, ptr, ea0, ea, crossed, data, target, vector⟩, nmi, irq, n, k, inv⟩, b⟩ := t
  obtain ⟨ea0, ea, crossed, indexed, ⟨d, b'⟩⟩ := l
  obtain ⟨rfl, rfl, rfl, rfl, rfl⟩ := at_l
  have effect := fun m c => toIdle_of_onRegs (onRegs_readEffect {} r.mnemonic m) c
  cases crossed with
  | true => exact congrArg (fun c => (⟨c.retire, _⟩ : Sys Ram)) (effect _ _)
  | false => exact congrArg (fun c => (⟨c.retire, _⟩ : Sys Ram)) (effect _ _)

/-- The data cycle of a read in a mode that indexes no base (R202 to R204, R207). -/
theorem run_readData (crossed : l.crossed = false) (direct : l.ea0 = l.ea) :
    (instruction r).run [.readData] t = (readAt (readEffect {} r.mnemonic) l).toSys := by
  obtain ⟨c, b⟩ := t
  obtain ⟨ea0, ea, crossed', indexed, ⟨d, b'⟩⟩ := l
  obtain ⟨rfl, rfl, rfl, rfl, rfl⟩ := at_l
  have crossed : c.latches.crossed = false := crossed
  have direct : c.latches.ea0 = c.latches.ea := direct
  have effect := fun m c => toIdle_of_onRegs (onRegs_readEffect {} r.mnemonic m) c
  rw [readAt, crossed, direct, run_last rfl]
  exact congrArg (fun c => (⟨c.retire, _⟩ : Sys Ram)) (effect _ _)

/-- The uncorrected read of a write or a read-modify-write (R206, R208). -/
theorem run_uncorrectedRead :
    ∃ t', Reached l.afterUncorrected t' ∧ ∀ cycles, (instruction r).run (if l.indexed then .dummyUncorrected :: cycles else cycles) t =
      (instruction r).run cycles t' := by
  obtain ⟨cpu, bus, ea0, ea, crossed⟩ := at_l
  cases indexed : l.indexed with
  | true =>
    refine ⟨(instruction r).cycle .dummyUncorrected (t.mapCpu Cpu.tick), ⟨?_, ?_, ea0, ea, crossed⟩, fun cycles => ?_⟩
    · rw [Located.afterUncorrected, Located.uncorrectedRead, indexed, if_pos rfl]
      exact congrArg Cpu.tick cpu
    · rw [Located.afterUncorrected, Located.uncorrectedRead, indexed, if_pos rfl]
      show (t.bus.read t.cpu.latches.ea0).2 = (l.st.bus.read l.ea0).2
      rw [bus, ea0]
    · rw [if_pos rfl, run_cons_of_not_done rfl]
  | false =>
    refine ⟨t, ⟨?_, ?_, ea0, ea, crossed⟩, fun cycles => rfl⟩
    · simpa [Located.afterUncorrected, Located.uncorrectedRead, indexed] using cpu
    · simpa [Located.afterUncorrected, Located.uncorrectedRead, indexed] using bus

/-- The write of an ordinary write (R202 to R208). -/
theorem run_writeData (unstable : unstableEffect r.mnemonic = none) (indexed : l.indexed = false) :
    (instruction r).run [.writeData] t = (writeAt (writeEffect r.mnemonic) l).toSys := by
  obtain ⟨c, b⟩ := t
  obtain ⟨ea0, ea, crossed, index, ⟨d, b'⟩⟩ := l
  obtain ⟨rfl, rfl, rfl, rfl, rfl⟩ := at_l
  obtain rfl : index = false := indexed
  have unstable : unstableEffect (instruction r).mnemonic = none := unstable
  rw [run_last rfl, perform_writeData unstable]
  exact congrArg (fun v => (⟨_, Ram.write _ _ v⟩ : Sys Ram)) (writeEffect_eq_tick r.mnemonic rfl)

/-- The write of SHA, SHX, SHY and TAS (R185). -/
theorem run_writeData_unstable {regs : Cpu → Byte × Cpu} (unstable : unstableEffect r.mnemonic = some regs)
    (indexed : l.indexed = false) : (instruction r).run [.writeData] t = (unstableWriteAt regs l).toSys := by
  obtain ⟨c, b⟩ := t
  obtain ⟨ea0, ea, crossed, index, ⟨d, b'⟩⟩ := l
  obtain ⟨rfl, rfl, rfl, rfl, rfl⟩ := at_l
  obtain rfl : index = false := indexed
  have unstable : unstableEffect (instruction r).mnemonic = some regs := unstable
  rw [run_last rfl, perform_writeData_unstable unstable]
  exact congrArg (fun q : Byte × Cpu => (⟨q.2.retire, Ram.write _ (shAddr (shValue q.1 _) _ _) (shValue q.1 _)⟩ : Sys Ram))
    (toIdle_eq_tick (unstableEffect_withRegs unstable) rfl)

omit at_l in
theorem perform_modifyWrite (mn : Mnemonic) (s : Sys Ram) :
    (Cycle.modifyWrite.perform {} ramBus mn s).1 =
      (⟨(modifyEffect mn s.cpu.latches.data s.cpu).2, s.bus⟩ : Sys Ram).write ramBus s.cpu.latches.ea
        (modifyEffect mn s.cpu.latches.data s.cpu).1 := rfl

/-- The read and the two writes of a read-modify-write (R209). -/
theorem run_modify (indexed : l.indexed = false) :
    (instruction r).run [.modifyRead, .modifyDummy, .modifyWrite] t = (modifyAt (modifyEffect r.mnemonic) l).toSys := by
  obtain ⟨c, b⟩ := t
  obtain ⟨ea0, ea, crossed, index, ⟨d, b'⟩⟩ := l
  obtain ⟨rfl, rfl, rfl, rfl, rfl⟩ := at_l
  obtain rfl : index = false := indexed
  have effect := modifyEffect_withRegs r.mnemonic (memRead b.mem c.latches.ea)
  rw [run_cons_of_not_done rfl, run_cons_of_not_done rfl, run_last rfl, perform_modifyWrite]
  exact congrArg (fun q : Byte × Cpu => (⟨q.2.retire, Ram.write _ _ q.1⟩ : Sys Ram)) (toIdle_eq_tick effect rfl)

end

/-! ## Whole sequences -/

end Flight

/-- An entry of a class that accesses an operand has one in memory, unless it is immediate (R71). -/
theorem hasAddress_of_wellFormed {r : Row} (wf : r.wellFormed = true)
    (cls : r.cls = .read ∧ r.mode ≠ .immediate ∨ r.cls = .write ∨ r.cls = .rmw) : hasAddress r.mode = true := by
  obtain ⟨mn, mode, cyc, boundary, illegal, cls⟩ := r
  simp only [Row.wellFormed, Row.modeOk, Bool.and_eq_true] at wf
  obtain ⟨⟨-, modeOk⟩, -⟩ := wf
  dsimp only at cls
  obtain ⟨rfl, imm⟩ | rfl | rfl := cls <;> cases mode <;> simp_all [hasAddress]

/-- The boundary flag of a read entry (R74). -/
theorem boundary_of_wellFormed {r : Row} (wf : r.wellFormed = true) (cls : r.cls = .read) : r.boundary = r.mode.indexesBase := by
  simp only [Row.wellFormed, Row.boundaryOk, Bool.and_eq_true, beq_iff_eq, cls] at wf
  simpa using wf.1.1

namespace Flight

section
variable {r : Row} {s : State} (wf : r.wellFormed = true) (rest : s.cpu.Resting)

include rest in
/-- Immediate mode (R201). -/
theorem run_immediate :
    (instruction r).run [.fetchOpcode, .immediate] s.toSys = (immediate (readEffect {} r.mnemonic) s.codeB1 s).toSys := by
  obtain ⟨⟨a, x, y, sp, pc, p, phase, micro, latches, nmi, irq, cycles, instructions, invalid⟩, bus⟩ := s
  obtain ⟨rfl, rfl, rfl⟩ : phase = .idle ∧ micro = 0 ∧ latches = {} := ⟨rest.idle, rest.micro, rest.latches⟩
  exact congrArg (fun c => (⟨c.retire, _⟩ : Sys Ram)) (toIdle_of_onRegs (onRegs_readEffect {} r.mnemonic _) _)

include wf rest

theorem run_read (cls : r.cls = .read) :
    (instruction r).run (sequenceOf r) s.toSys = (runRow r s.codeB1 s.codeB2 s).toSys := by
  rw [sequenceOf, runRow, cls]
  dsimp only
  by_cases imm : r.mode = .immediate
  · rw [if_pos imm, if_pos imm, run_immediate rest]
  · have has := hasAddress_of_wellFormed wf (.inl ⟨cls, imm⟩)
    have reach := locate_reaches s has s.codeB1 s.codeB2
    have at_l := reached_addressCycles r has rest
    rw [if_neg imm, if_neg imm, run_append _ (addressCyclesOf_goes r.mode), readCycles, boundary_of_wellFormed wf cls, ← reach.indexed]
    cases base : (locate r.mode s.codeB1 s.codeB2 s).indexed with
    | true => exact run_readUncorrected at_l
    | false =>
      have direct : (locate r.mode s.codeB1 s.codeB2 s).crossed = false := by
        cases crossed : (locate r.mode s.codeB1 s.codeB2 s).crossed with
        | false => rfl
        | true => rw [← base, reach.direct crossed]
      exact run_readData at_l direct (reach.uncorrected direct)

theorem run_write (cls : r.cls = .write) :
    (instruction r).run (sequenceOf r) s.toSys = (runRow r s.codeB1 s.codeB2 s).toSys := by
  have has := hasAddress_of_wellFormed wf (.inr (.inl cls))
  have reach := locate_reaches s has s.codeB1 s.codeB2
  obtain ⟨t, at_l, goes⟩ := run_uncorrectedRead (reached_addressCycles r has rest)
  rw [sequenceOf, runRow, cls]
  dsimp only
  rw [run_append _ (addressCyclesOf_goes r.mode), ← reach.indexed]
  refine (goes [.writeData]).trans ?_
  cases unstable : unstableEffect r.mnemonic with
  | none => exact (run_writeData at_l unstable rfl).trans rfl
  | some regs => exact (run_writeData_unstable at_l unstable rfl).trans rfl

theorem run_rmw (cls : r.cls = .rmw) :
    (instruction r).run (sequenceOf r) s.toSys = (runRow r s.codeB1 s.codeB2 s).toSys := by
  have has := hasAddress_of_wellFormed wf (.inr (.inr cls))
  have reach := locate_reaches s has s.codeB1 s.codeB2
  obtain ⟨t, at_l, goes⟩ := run_uncorrectedRead (reached_addressCycles r has rest)
  rw [sequenceOf, runRow, cls]
  dsimp only
  rw [run_append _ (addressCyclesOf_goes r.mode), ← reach.indexed]
  exact ((goes _).trans (run_modify at_l rfl)).trans rfl

end

theorem controlSequence_of_short {mn : Mnemonic} (short : longControl mn = false) (mode : Mode) :
    controlSequence mn mode =
      if mode = .relative then [.fetchOpcode, .branchTest, .branchTake, .branchFix] else [.fetchOpcode, .implied] := by
  cases mn with
  | jmp | jsr | rts | rti | brk | pha | php | pla | plp => cases short
  | _ => rfl

theorem runControl_of_short {mn : Mnemonic} (short : longControl mn = false) (mode : Mode) (b1 b2 : Byte) (s : State) :
    runControl mn mode b1 b2 s =
      if mode = .relative then branch (branchCondition mn).1 (branchCondition mn).2 b1 s
      else if mode = .accumulator then implied (onAccumulator (modifyEffect mn)) s else implied (impliedEffect mn) s := by
  cases mn with
  | jmp | jsr | rts | rti | brk | pha | php | pla | plp => cases short
  | _ => rfl

/-- A two-cycle instruction (R200). -/
theorem run_implied {r : Row} {s : State} (rest : s.cpu.Resting) (acc : r.mode = .accumulator ↔ r.mnemonic ∈ [.asl, .lsr, .rol, .ror]) :
    (instruction r).run [.fetchOpcode, .implied] s.toSys =
      (if r.mode = .accumulator then implied (onAccumulator (modifyEffect r.mnemonic)) s
        else implied (impliedEffect r.mnemonic) s).toSys := by
  obtain ⟨⟨a, x, y, sp, pc, p, phase, micro, latches, nmi, irq, cycles, instructions, invalid⟩, bus⟩ := s
  obtain ⟨rfl, rfl, rfl⟩ : phase = .idle ∧ micro = 0 ∧ latches = {} := ⟨rest.idle, rest.micro, rest.latches⟩
  rw [run_cons_of_not_done rfl, run_last rfl]
  refine Eq.trans (congrArg (fun c : Cpu => (⟨c.toIdle.retire, _⟩ : Sys Ram)) (perform_implied_cpu {} ramBus r.mnemonic _)) ?_
  by_cases mode : r.mode = .accumulator
  · rw [if_pos mode, if_pos (acc.1 mode)]
    exact congrArg (fun c => (⟨c.retire, _⟩ : Sys Ram)) (toIdle_of_onRegs (onRegs_onAccumulator r.mnemonic) _)
  · rw [if_neg mode, if_neg (mode ∘ acc.2)]
    exact congrArg (fun c => (⟨c.retire, _⟩ : Sys Ram)) (toIdle_of_onRegs (onRegs_impliedEffect r.mnemonic) _)

section
variable {F : Flight} {cy : Cycle} {s t : Sys Ram}

theorem run_of_perform_done (h : cy.perform {} ramBus F.mnemonic (s.mapCpu Cpu.tick) = (t, true)) (rest : List Cycle) :
    F.run (cy :: rest) s = t.mapCpu F.finish := by
  rw [run_cons_of_done (by rw [h]), cycle_of_done (by rw [h]), h]

theorem run_of_perform_goes (h : cy.perform {} ramBus F.mnemonic (s.mapCpu Cpu.tick) = (t, false)) (rest : List Cycle) :
    F.run (cy :: rest) s = F.run rest (t.mapCpu (Cpu.goOn (F.phase cy))) := by
  rw [run_cons_of_not_done (by rw [h]), cycle_of_not_done (by rw [h]), h]

end

section
variable (r : Row) (c : Cpu) (b : Ram)

/-- A branch that is not taken ends with its test (R210). -/
theorem run_branchTest_not (h : c.flag (branchCondition r.mnemonic).1 ≠ (branchCondition r.mnemonic).2) (rest : List Cycle) :
    (instruction r).run (.branchTest :: rest) ⟨c, b⟩ = ⟨c.tick.incPc.toIdle.retire, (b.read c.pc).2⟩ :=
  if_pos (bne_iff_ne.2 h)

/-- A branch that is taken goes on with its displacement latched. -/
theorem run_branchTest (h : c.flag (branchCondition r.mnemonic).1 = (branchCondition r.mnemonic).2) (rest : List Cycle) :
    (instruction r).run (.branchTest :: rest) ⟨c, b⟩ =
      (instruction r).run rest
        ⟨((c.tick.incPc.latch fun l => { l with b1 := memRead b.mem c.pc }).goOn (phaseOf r.cls .branchTest)), (b.read c.pc).2⟩ :=
  if_neg (Bool.eq_false_iff.1 (bne_eq_false_iff_eq.2 h))

/-- A branch taken within its page (R210). -/
theorem run_branchTake_same (h : samePage (branchTarget c.pc c.latches.b1) c.pc = true) (rest : List Cycle) :
    (instruction r).run (.branchTake :: rest) ⟨c, b⟩ =
      ⟨(c.tick.jump (branchTarget c.pc c.latches.b1)).toIdle.retire, (b.read c.pc).2⟩ :=
  run_of_perform_done (F := instruction r) (cy := .branchTake) (s := ⟨c, b⟩) (if_pos h) rest

/-- A branch taken across a page (R210). -/
theorem run_branchTake_cross (h : samePage (branchTarget c.pc c.latches.b1) c.pc = false) :
    (instruction r).run [.branchTake, .branchFix] ⟨c, b⟩ =
      ⟨(c.tick.tick.jump (branchTarget c.pc c.latches.b1)).toIdle.retire,
        ((b.read c.pc).2.read (mkWord (hiByte c.pc) (loByte (branchTarget c.pc c.latches.b1)))).2⟩ :=
  run_of_perform_goes (F := instruction r) (cy := .branchTake) (s := ⟨c, b⟩) (if_neg (Bool.eq_false_iff.1 h)) [.branchFix]

end

/-- A branch: not taken, taken in its page, or taken across a page (R132, R210). -/
theorem run_branch {r : Row} {s : State} (rest : s.cpu.Resting) :
    (instruction r).run [.fetchOpcode, .branchTest, .branchTake, .branchFix] s.toSys =
      (branch (branchCondition r.mnemonic).1 (branchCondition r.mnemonic).2 s.codeB1 s).toSys := by
  obtain ⟨c, b, fetched, off, opened⟩ : ∃ c b, s.fetched.fetched = ⟨c.toIdle.tick.incPc, (b.read c.pc).2⟩ ∧
      s.codeB1 = memRead b.mem c.pc ∧ ∀ cycles, (instruction r).run (.fetchOpcode :: cycles) s.toSys = (instruction r).run cycles ⟨c, b⟩ := by
    obtain ⟨⟨a, x, y, sp, pc, p, phase, micro, latches, nmi, irq, cycles, instructions, invalid⟩, bus⟩ := s
    obtain ⟨rfl, rfl, rfl⟩ : phase = .idle ∧ micro = 0 ∧ latches = {} := ⟨rest.idle, rest.micro, rest.latches⟩
    exact ⟨_, _, rfl, rfl, fun _ => run_cons_of_not_done rfl _⟩
  rw [opened, branch, fetched, off]
  by_cases taken : c.flag (branchCondition r.mnemonic).1 = (branchCondition r.mnemonic).2
  · rw [run_branchTest r c b taken]
    refine Eq.trans ?_ (congrArg State.toSys (if_pos (beq_iff_eq.2 taken))).symm
    cases same : samePage (branchTarget (c.pc + 1) (memRead b.mem c.pc)) (c.pc + 1) with
    | true =>
      refine (run_branchTake_same r _ _ ?_ _).trans ?_
      · exact same
      · refine Eq.trans ?_ (congrArg (fun t : State => ((t.mapCpu (Cpu.jump _)).retire).toSys) (if_pos same)).symm
        rfl
    | false =>
      refine (run_branchTake_cross r _ _ ?_).trans ?_
      · exact same
      · refine Eq.trans ?_ (congrArg (fun t : State => ((t.mapCpu (Cpu.jump _)).retire).toSys) (if_neg (Bool.eq_false_iff.1 same))).symm
        rfl
  · refine (run_branchTest_not r c b taken _).trans (Eq.trans ?_ (congrArg State.toSys (if_neg (taken ∘ beq_iff_eq.1))).symm)
    rfl

/-- The sequences of the control entries (R210 to R216). -/
theorem run_control {r : Row} {s : State} (rest : s.cpu.Resting) (acc : r.mode = .accumulator ↔ r.mnemonic ∈ [.asl, .lsr, .rol, .ror]) :
    (instruction r).run (controlSequence r.mnemonic r.mode) s.toSys =
      (runControl r.mnemonic r.mode s.codeB1 s.codeB2 s).toSys := by
  cases short : longControl r.mnemonic with
  | false =>
    rw [controlSequence_of_short short, runControl_of_short short]
    split
    · exact run_branch rest
    · exact run_implied rest acc
  | true =>
  obtain ⟨mn, mode, cyc, boundary, illegal, cls⟩ := r
  obtain ⟨⟨a, x, y, sp, pc, p, phase, micro, latches, nmi, irq, cycles, instructions, invalid⟩, bus⟩ := s
  obtain ⟨rfl, rfl, rfl⟩ : phase = .idle ∧ micro = 0 ∧ latches = {} := ⟨rest.idle, rest.micro, rest.latches⟩
  cases mn with
  | jmp =>
    simp only [runControl, controlSequence]
    split <;> rfl
  | jsr =>
    simp only [runControl, jumpToSubroutine, State.codeB1, loByte_mkWord]
    rfl
  | rts | rti | brk | pha | php | pla | plp => rfl
  | _ => cases short

/-- Of the control entries the shifts alone are of the accumulator (R71). -/
theorem accumulator_iff :
    ∀ op : Byte, ((opcodeTable op).all fun r => r.cls != .control ||
      (r.mode == .accumulator) == [.asl, .lsr, .rol, .ror].contains r.mnemonic) = true := by
  decide

/-- A sequence performed from a boundary is the entry's meaning (R195, D2). -/
theorem run_sequenceOf {op : Byte} {r : Row} (entry : opcodeTable op = some r) (wf : r.wellFormed = true) (cls : r.cls ≠ .halt)
    {s : State} (rest : s.cpu.Resting) :
    (instruction r).run (instruction r).cycles s.toSys = (runRow r s.codeB1 s.codeB2 s).toSys := by
  cases h : r.cls with
  | halt => exact absurd h cls
  | read => exact run_read wf rest h
  | write => exact run_write wf rest h
  | rmw => exact run_rmw wf rest h
  | control =>
    have acc := accumulator_iff op
    simp only [entry, Option.all_some, h, Bool.or_eq_true, bne_self_eq_false, Bool.false_eq_true, false_or, beq_iff_eq] at acc
    rw [cycles, sequenceOf, runRow, h]
    exact run_control rest (by rw [← List.contains_iff_mem, ← acc, beq_iff_eq])

/-- An interrupt's sequence performed from a boundary is its meaning (R217). -/
theorem run_interruptCycles {e : Event} {s : State} (rest : s.cpu.Resting) :
    interrupt.run interrupt.cycles (s.toSys.mapCpu (Cpu.accept e)) =
      ((s.mapCpu (Cpu.acknowledge e)).interruptSequence e.vector).toSys := by
  obtain ⟨⟨a, x, y, sp, pc, p, phase, micro, latches, nmi, irq, cycles, instructions, invalid⟩, bus⟩ := s
  obtain ⟨rfl, rfl, rfl⟩ : phase = .idle ∧ micro = 0 ∧ latches = {} := ⟨rest.idle, rest.micro, rest.latches⟩
  cases e <;> rfl

end Flight

end Sys2Proof.Machine
end

section
/-! PROOFS. A step at a boundary is repeated `advance` (R195, D2), and what follows: the step keeps soundness (R35, R192), and it
completes within eight cycles (R219). -/

namespace Sys2Proof.Machine

/-! ## The instruction at PC -/

/-- A control entry that jumps to its operand has two operand bytes (R71). -/
theorem jump_operandBytes :
    ∀ op : Byte, ((opcodeTable op).all fun r => !([.jmp, .jsr].contains r.mnemonic) || r.mode.operandBytes == 2) = true := by
  decide

section
variable {b1 b2 c1 c2 : Byte} {m : Mode} (first : 1 ≤ m.operandBytes → b1 = c1) (second : 2 ≤ m.operandBytes → b2 = c2)
include first second

theorem locate_operands (has : hasAddress m = true) (s : State) : locate m b1 b2 s = locate m c1 c2 s := by
  cases m with
  | implied | accumulator | immediate | relative | indirect => cases has
  | zeropage | zeropageX | zeropageY | indirectX | indirectY => rw [first (by decide)]; rfl
  | absolute | absoluteX | absoluteY => rw [first (by decide), second (by decide)]

theorem runControl_operands {mn : Mnemonic} (jump : mn = .jmp ∨ mn = .jsr → m.operandBytes = 2) (s : State) :
    runControl mn m b1 b2 s = runControl mn m c1 c2 s := by
  cases short : longControl mn with
  | false =>
    rw [Flight.runControl_of_short short, Flight.runControl_of_short short]
    split
    · next relative => rw [first (by rw [relative]; decide)]
    · rfl
  | true =>
    cases mn with
    | jmp | jsr =>
      have two := jump (by decide)
      rw [first (by omega), second (by omega)]
    | rts | rti | brk | pha | php | pla | plp => rfl
    | _ => cases short

end

/-- An entry's instruction depends on its operand bytes alone. -/
theorem runRow_operands {op : Byte} {r : Row} (entry : opcodeTable op = some r) (wf : r.wellFormed = true) {b1 b2 c1 c2 : Byte}
    (first : 1 ≤ r.mode.operandBytes → b1 = c1) (second : 2 ≤ r.mode.operandBytes → b2 = c2) (s : State) :
    runRow r b1 b2 s = runRow r c1 c2 s := by
  have addressed := fun cls => locate_operands first second (hasAddress_of_wellFormed wf cls) s
  cases cls : r.cls with
  | halt => simp only [runRow, cls]
  | control =>
    have jump := jump_operandBytes op
    simp only [entry, Option.all_some, Bool.or_eq_true, Bool.not_eq_true', beq_iff_eq] at jump
    simp only [runRow, cls]
    refine runControl_operands first second (fun jumps => jump.resolve_left ?_) s
    obtain h | h := jumps <;> rw [h] <;> decide
  | read =>
    simp only [runRow, cls]
    by_cases imm : r.mode = .immediate
    · rw [if_pos imm, if_pos imm, first (by rw [imm]; decide)]
    · rw [if_neg imm, if_neg imm, addressed (.inl ⟨cls, imm⟩)]
  | write => simp only [runRow, cls, addressed (.inr (.inl cls))]
  | rmw => simp only [runRow, cls, addressed (.inr (.inr cls))]

/-- The instruction at PC is that of the entry of the byte there, on the bytes that follow (R66, R77, R199). -/
theorem runInstruction_eq (s : State) :
    ∃ r, opcodeTable (memRead s.bus.mem s.cpu.pc) = some r ∧ r.wellFormed = true ∧
      runInstruction s = .next (runRow r s.codeB1 s.codeB2 s) := by
  obtain ⟨r, entry, rowWf, -, enough⟩ := decode_cons (memRead s.bus.mem s.cpu.pc) [memRead s.bus.mem (s.cpu.pc + 1), memRead s.bus.mem (s.cpu.pc + 2)]
  have atMostTwo : r.mode.operandBytes ≤ 2 := by cases r.mode <;> decide
  obtain ⟨i, decoded, ok, bytes⟩ := enough atMostTwo
  refine ⟨r, entry, rowWf, ?_⟩
  obtain ⟨r', entry', runs⟩ := exec_eq_runRow i ok s
  have opcode : i.opcode = memRead s.bus.mem s.cpu.pc := by rw [Instr.opcode, bytes]; rfl
  obtain rfl : r = r' := by
    rw [Instr.row?, opcode, entry] at entry'
    exact Option.some.inj entry'
  have next : s.nextInstr = _ := decoded
  rw [runInstruction, next]
  refine runs.trans (congrArg _ (runRow_operands entry rowWf (fun one => ?_) (fun two => ?_) s))
  · obtain ⟨k, len⟩ := Nat.exists_eq_add_of_le' one
    rw [Instr.b1, bytes, len]
    rfl
  · rw [Instr.b2, bytes, Nat.le_antisymm atMostTwo two, State.codeB2, Word.add_one_one]
    rfl

/-! ## Steps -/

theorem stepByCycles_of_stepOn {s : State} {r : CallResult} {n : Nat} {t : Sys Ram}
    (step : stepOn {} ramBus maxCycles s.toSys = (r, n, t)) (ran : r = .ok ∨ r = .halted) : stepByCycles s = .next t.toState := by
  rw [stepByCycles, step]
  exact outcomeOf_of_ok ran t

/-- A step whose first call halts, or finds the core halted, is that call. -/
theorem stepOn_of_halted {s t : Sys Ram} (advance : advanceOn {} ramBus s = (.halted, t)) (fuel : Nat) :
    ∃ n, stepOn {} ramBus (fuel + 1) s = (.halted, n, t) :=
  ⟨_, by rw [stepOn, advance]; exact if_neg fun more => nomatch more.1⟩

namespace Flight

/-- The last cycle leaves the core at a boundary. -/
theorem run_phase {F : Flight} {cycles : List Cycle} (ends : isRest cycles = true) (s : Sys Ram) :
    (F.run cycles s).cpu.phase = .idle := by
  induction cycles generalizing s with
  | nil => cases ends
  | cons cy rest ih =>
    cases done : (cy.perform {} ramBus F.mnemonic (s.mapCpu Cpu.tick)).2 with
    | true =>
      rw [run_cons_of_done done, cycle_of_done done]
      exact finish_phase F _
    | false =>
      rw [run_cons_of_not_done done]
      obtain ⟨-, (⟨-, last⟩ | more)⟩ := isRest_cons ends
      · rw [perform_ends last] at done
        cases done
      · exact ih more _

/-- A sequence has at most eight cycles (R219). -/
theorem length_cycles (F : Flight) : F.cycles.length ≤ maxCycles := by
  cases F with
  | interrupt => decide
  | instruction r =>
    show (sequenceOf r).length ≤ maxCycles
    by_cases cls : r.cls = .halt
    · rw [sequenceOf, cls]
      exact Nat.le_add_left 1 7
    · obtain ⟨rest, seq, -, len⟩ := sequenceOf_eq_cons cls
      rw [seq]
      exact Nat.succ_le_succ len

theorem length_drop_cycles (F : Flight) (k : Nat) : (F.cycles.drop k).length ≤ maxCycles :=
  ((List.drop_sublist k _).length_le).trans F.length_cycles

end Flight

/-- A step of the machine from `s` is a step of the engine, and completes in `t`, at a boundary or halted. -/
structure StepsTo (s : State) (t : Sys Ram) : Prop where
  engine : ∃ r n, stepOn {} ramBus maxCycles s.toSys = (r, n, t) ∧ (r = .ok ∨ r = .halted)
  completes : t.cpu.phase = .idle ∨ t.cpu.phase = .halted
  meaning : step s = .next t.toState

section
variable {s : State} (live : s.cpu.invalid = none)
include live

theorem step_of_idle (idle : s.cpu.phase = .idle) : step s = boundaryStep s := by
  simp only [step, stepFrom, live, idle]

theorem step_of_halted (halted : s.cpu.phase = .halted) : step s = .next (s.mapCpu Cpu.tick) := by
  simp only [step, stepFrom, live, halted]

theorem step_of_inFlight (notIdle : s.cpu.phase ≠ .idle) (notHalted : s.cpu.phase ≠ .halted) : step s = stepByCycles s := by
  cases h : s.cpu.phase <;> simp_all only [step, stepFrom, ne_eq, not_true_eq_false]

/-- An interrupt entry (R217). -/
theorem stepsTo_interrupt (rest : s.cpu.Resting) {e : Event} (event : s.cpu.boundaryEvent = some e) : ∃ t, StepsTo s t := by
  obtain ⟨n, steps⟩ := Flight.stepOn_whole (advanceOn_interrupt (s := s.toSys) rest.idle live event) rfl rfl (by decide) rfl
    ((accept_micro e _).trans rest.micro) rfl ((accept_invalid e _).trans live)
  refine ⟨_, ⟨_, n, steps, .inl rfl⟩, .inl (Flight.run_phase rfl _), ?_⟩
  rw [step_of_idle live rest.idle, boundaryStep, event]
  exact congrArg (fun t : Sys Ram => Host.Outcome.next t.toState) (Flight.run_interruptCycles rest).symm

/-- An instruction (R199 to R218). -/
theorem stepsTo_instruction (rest : s.cpu.Resting) (quiet : s.cpu.boundaryEvent = none) : ∃ t, StepsTo s t := by
  obtain ⟨r, entry, wf, runs⟩ := runInstruction_eq s
  have meaning : step s = .next (runRow r s.codeB1 s.codeB2 s) := by rw [step_of_idle live rest.idle, boundaryStep, quiet, runs]
  by_cases cls : r.cls = .halt
  · obtain ⟨n, steps⟩ := stepOn_of_halted (advanceOn_halt (s := s.toSys) rest.idle live quiet entry cls) 7
    refine ⟨_, ⟨_, n, steps, .inr rfl⟩, .inr rfl, meaning.trans ?_⟩
    simp only [runRow, cls]
    exact congrArg (fun c => Host.Outcome.next (⟨c.tick.incPc.halt, _⟩ : State)) rest.toIdle.symm
  · obtain ⟨cycles, seq, ends, len⟩ := sequenceOf_eq_cons cls
    obtain ⟨n, steps⟩ := Flight.stepOn_whole (advanceOn_instruction (s := s.toSys) rest.idle live quiet entry cls) seq ends len rfl
      rest.micro (Flight.holds_fetchOpcode entry) live
    have seq : (Flight.instruction r).cycles = .fetchOpcode :: cycles := seq
    refine ⟨_, ⟨_, n, steps, .inl rfl⟩, .inl ?_, meaning.trans ?_⟩
    · rw [seq, Flight.run_cons_of_not_done rfl]
      exact Flight.run_phase ends _
    · exact congrArg (fun t : Sys Ram => Host.Outcome.next t.toState) (Flight.run_sequenceOf entry wf cls rest).symm

/-- The cycle of a halted core (R191). -/
theorem stepsTo_halted (halted : s.cpu.phase = .halted) : ∃ t, StepsTo s t := by
  obtain ⟨n, steps⟩ := stepOn_of_halted (advanceOn_of_halted (s := s.toSys) halted live) 7
  exact ⟨_, ⟨_, n, steps, .inr rfl⟩, .inr halted, step_of_halted live halted⟩

/-- The rest of a sequence in flight (R195). -/
theorem stepsTo_inFlight {F : Flight} (holds : F.Holds s.cpu) (ends : isRest (F.cycles.drop s.cpu.micro) = true)
    (notIdle : s.cpu.phase ≠ .idle) (notHalted : s.cpu.phase ≠ .halted) : ∃ t, StepsTo s t := by
  obtain ⟨n, steps⟩ := Flight.stepOn_eq (s := s.toSys) ends (Flight.length_drop_cycles F s.cpu.micro) holds live rfl
  exact ⟨_, ⟨_, n, steps, .inl rfl⟩, .inl (Flight.run_phase ends _),
    (step_of_inFlight live notIdle notHalted).trans (stepByCycles_of_stepOn steps (.inl rfl))⟩

end

/-- From a sound state every step completes as the engine's. -/
theorem stepsTo_of_sound {s : State} (sound : s.Sound) : ∃ t, StepsTo s t := by
  obtain ⟨⟨-, engine, live⟩, -⟩ := sound
  by_cases idle : s.cpu.phase = .idle
  · obtain ⟨micro, latches⟩ := engine.1 (.inl idle)
    have rest : s.cpu.Resting := ⟨idle, micro, latches⟩
    cases event : s.cpu.boundaryEvent with
    | some e => exact stepsTo_interrupt live rest event
    | none => exact stepsTo_instruction live rest event
  by_cases halted : s.cpu.phase = .halted
  · exact stepsTo_halted live halted
  · obtain ⟨F, holds, ends, -⟩ := Flight.exists_of_engineOk engine idle halted
    exact stepsTo_inFlight live holds ends idle halted

/-- Settles O52: `stepsTo_of_sound`. -/
theorem stepIsRepeatedAdvance : Obligations.StepIsRepeatedAdvance := by
  intro s sound
  obtain ⟨t, ⟨r, n, steps, ran⟩, -, meaning⟩ := stepsTo_of_sound sound
  rw [meaning, stepByCycles_of_stepOn steps ran]

/-- Settles O50: a step is one of the engine, each of whose cycles keeps soundness (`stepOn_sound`). -/
theorem stepKeepsSound : Obligations.StepKeepsSound := by
  intro s t sound next
  obtain ⟨u, ⟨r, n, steps, -⟩, -, meaning⟩ := stepsTo_of_sound sound
  rw [meaning] at next
  cases next
  exact stepOn_sound (s := s.toSys) sound steps

/-- A step counts a cycle for each call of `advance`, and an instruction only with the call that ends it. -/
theorem stepOn_counts {fuel : Nat} {s : Sys Ram} (sound : s.toState.Sound) {r : CallResult} {n : Nat} {t : Sys Ram}
    (steps : stepOn {} ramBus (fuel + 1) s = (r, n, t)) :
    s.cpu.cycles < t.cpu.cycles ∧ t.cpu.cycles ≤ s.cpu.cycles + (fuel + 1) ∧
      s.cpu.instructions ≤ t.cpu.instructions ∧ t.cpu.instructions ≤ s.cpu.instructions + 1 := by
  induction fuel generalizing s r n t with
  | zero =>
    rcases call : advanceOn {} ramBus s with ⟨r', t'⟩
    obtain ⟨cycles, instructions⟩ := advanceOn_counts {} ramBus sound.1.2.2 call
    rw [stepOn, call] at steps
    obtain rfl : t' = t := by
      dsimp only [stepOn] at steps
      split at steps <;> cases steps <;> rfl
    omega
  | succ fuel ih =>
    obtain ⟨r', t', call, -, sound'⟩ := advanceOn_sound sound
    obtain ⟨cycles, instructions⟩ := advanceOn_counts {} ramBus sound.1.2.2 call
    rw [stepOn, call] at steps
    dsimp only at steps
    by_cases more : r' = .ok ∧ t'.cpu.phase ≠ .idle
    · rw [if_pos more] at steps
      rcases later : stepOn {} ramBus (fuel + 1) t' with ⟨r₂, n₂, t₂⟩
      rw [later] at steps
      obtain rfl : t₂ = t := congrArg (·.2.2) steps
      have := ih sound' later
      have := instructions.resolve_right fun h => more.2 h.2
      omega
    · rw [if_neg more] at steps
      obtain rfl : t' = t := congrArg (·.2.2) steps
      omega

/-- Settles O53: a step is at most eight calls of the engine, each of which counts one cycle (`stepOn_counts`). -/
theorem soundStepsComplete : Obligations.SoundStepsComplete := by
  intro s sound
  obtain ⟨t, ⟨r, n, steps, ran⟩, completes, meaning⟩ := stepsTo_of_sound sound
  refine ⟨t.toState, meaning, completes, ?_⟩
  exact stepOn_counts (s := s.toSys) sound steps

end Sys2Proof.Machine
end

section
/-! PROOFS. Calls, returns and entries to a handler (R149 to R152, R217, R233), JAM (R191), and the round trips of the stack
(R144). -/

namespace Sys2Proof.Machine

theorem Byte.add_one_one_one (b : Byte) : b + 1 + 1 + 1 = b + 3 := by bv_omega
theorem Byte.sub_one_one_one (b : Byte) : b - 1 - 1 - 1 = b - 3 := by bv_omega

/-! ## Calls -/

/-- The two slots JSR's pushes fill hold the return address, and no other byte changes (R149). -/
theorem memRead_callMem {m : Memory} (wf : Memory.wf m = true) (sp : Byte) (ret : Word) :
    memRead (callMem m sp ret) (stackAddr sp) = hiByte ret ∧ memRead (callMem m sp ret) (stackAddr (sp - 1)) = loByte ret ∧
      ∀ b, b ≠ stackAddr sp → b ≠ stackAddr (sp - 1) → memRead (callMem m sp ret) b = memRead m b := by
  have pushed := memWrite_wf wf (stackAddr sp) (hiByte ret)
  have apart := stackAddr_ne (ne_sub_one sp)
  refine ⟨?_, memRead_memWrite_same pushed _ _, fun b hi lo => ?_⟩
  · rw [callMem, memRead_memWrite_ne pushed apart.symm, memRead_memWrite_same wf]
  · rw [callMem, memRead_memWrite_ne pushed lo.symm, memRead_memWrite_ne wf hi.symm]

/-- Settles O15: the core JSR leaves (`jumpToSubroutine_cpu`) and the memory its two pushes leave (`memRead_callMem`). -/
theorem jumpToSubroutine_holds : Obligations.JumpToSubroutine := by
  intro target s wf ret hiSlot loSlot
  obtain ⟨hi, lo, others⟩ := memRead_callMem wf s.cpu.s ret
  have cpu := jumpToSubroutine_cpu s target
  rw [Byte.sub_one_one] at cpu
  refine ⟨_, rfl, ?_, ?_, ?_, ?_, fun operand notHi notLo => ?_⟩
  · rw [cpu, jumpToSubroutine_mem]
  · rw [jumpToSubroutine_mem, hi]
  · rw [jumpToSubroutine_mem, lo]
  · rwa [jumpToSubroutine_mem]
  · rw [cpu]
    show mkWord (memRead (callMem s.bus.mem s.cpu.s ret) ret) (loByte target) = target
    rw [others ret notHi notLo, operand, mkWord_hiByte_loByte]

/-! ## Returns -/

set_option maxRecDepth 20000 in
/-- Settles O16: RTS and RTI pull two and three bytes one after the other, and RTI writes P by SetP (R27). -/
theorem returnsFromCalls : Obligations.ReturnsFromCalls := by
  refine ⟨by decide, by decide, fun s => ⟨⟨_, rfl, ?_, fun b => by rw [returnFromSubroutine_mem]⟩,
    ⟨_, rfl, ?_, fun b => by rw [returnFromInterrupt_mem]⟩⟩⟩
  · rw [returnFromSubroutine_cpu, Byte.add_one_one]
  · rw [returnFromInterrupt_cpu, Byte.add_one_one_one, Byte.add_one_one]
    rfl

/-! ## Entries to a handler -/

/-- The pushes of an entry leave the vectors as they are: they are in page 1 (R23, R57). -/
theorem memRead16_entryMem {m : Memory} (wf : Memory.wf m = true) (sp : Byte) (pc : Word) (status : Byte) {v : Word}
    (lo : hiByte v ≠ 1) (hi : hiByte (v + 1) ≠ 1) : memRead16 (entryMem m sp pc status) v = memRead16 m v := by
  rw [memRead16, entryMem_outside wf sp pc status lo, entryMem_outside wf sp pc status hi, memRead16]

set_option maxRecDepth 20000 in
/-- Settles O17: BRK is an entry through the IRQ vector, with the status PHP pushes. -/
theorem breakEntersHandler : Obligations.BreakEntersHandler := by
  refine ⟨by decide, fun s wf => ⟨_, rfl, ?_, ?_⟩⟩
  · rw [breakInterrupt_cpu, Byte.sub_one_one_one, memRead16_entryMem wf _ _ _ (by decide) (by decide)]
    rfl
  · rw [breakInterrupt_mem]
    exact entryMem_pushed wf s.cpu.s (s.cpu.pc + 2) s.cpu.statusForBreak

/-- The seven accesses of an interrupt's entry (R217). -/
theorem interruptSequence_log (s : State) (v : Word) :
    Accessed s (s.interruptSequence v) [rd s s.cpu.pc, rd s s.cpu.pc, .write (stackAddr s.cpu.s) (hiByte s.cpu.pc),
      .write (stackAddr (s.cpu.s - 1)) (loByte s.cpu.pc), .write (stackAddr (s.cpu.s - 1 - 1)) s.cpu.statusForInterrupt,
      rd (s.interruptSequence v) v, rd (s.interruptSequence v) (v + 1)] := by
  simp [Accessed, rd, State.interruptSequence, State.enterHandler, Cpu.tick, Cpu.decS]

/-- An interrupt's entry through a vector outside page 1 (R217, R233). -/
theorem interruptSequence_enters (s : State) (wf : Memory.wf s.bus.mem = true) {v : Word} (lo : hiByte v ≠ 1)
    (hi : hiByte (v + 1) ≠ 1) :
    (s.interruptSequence v).cpu = { s.cpu with
      s := s.cpu.s - 3
      p := putFlag s.cpu.p .i true
      pc := memRead16 s.bus.mem v
      cycles := s.cpu.cycles + 7 } ∧
    PushedThree s.bus.mem (s.interruptSequence v).bus.mem s.cpu.s (hiByte s.cpu.pc) (loByte s.cpu.pc) s.cpu.statusForInterrupt ∧
    Accessed s (s.interruptSequence v) [rd s s.cpu.pc, rd s s.cpu.pc, .write (stackAddr s.cpu.s) (hiByte s.cpu.pc),
      .write (stackAddr (s.cpu.s - 1)) (loByte s.cpu.pc), .write (stackAddr (s.cpu.s - 2)) s.cpu.statusForInterrupt,
      rd s v, rd s (v + 1)] := by
  refine ⟨?_, ?_, ?_⟩
  · rw [interruptSequence_cpu, Byte.sub_one_one_one, memRead16_entryMem wf _ _ _ lo hi]
  · rw [interruptSequence_mem]
    exact entryMem_pushed wf _ _ _
  · have log := interruptSequence_log s v
    simp only [rd, interruptSequence_mem, entryMem_outside wf _ _ _ lo, entryMem_outside wf _ _ _ hi, Byte.sub_one_one] at log
    exact log

/-- Settles O47: the boundary's event is served by its sequence. -/
theorem interruptEntry : Obligations.InterruptEntry := by
  intro s idle live wf
  refine ⟨fun nmi => ?_, fun quiet irq open_ => ?_⟩
  · have event : s.cpu.boundaryEvent = some .nmi := if_pos nmi
    refine ⟨_, ?_, interruptSequence_enters (s.mapCpu (Cpu.acknowledge .nmi)) wf (by decide) (by decide)⟩
    rw [step_of_idle live idle, boundaryStep, event]
    rfl
  · have event : s.cpu.boundaryEvent = some .irq := by simp [Cpu.boundaryEvent, quiet, irq, open_]
    refine ⟨_, ?_, interruptSequence_enters (s.mapCpu (Cpu.acknowledge .irq)) wf (by decide) (by decide)⟩
    rw [step_of_idle live idle, boundaryStep, event]
    rfl

/-! ## JAM -/

/-- Settles O26: JAM is the halt entry, and a halted core's step is one tick. -/
theorem jamHalts : Obligations.JamHalts := by
  refine ⟨fun op => Iff.rfl, fun i s wf jam => ?_, fun s halted live => step_of_halted live halted⟩
  obtain ⟨r, -, -, cls, runs⟩ := run_class wf jam (c := .halt) rfl s
  have halts : runRow r i.b1 i.b2 s = s.jam := by simp only [runRow, cls]
  exact ⟨_, runs.trans (congrArg _ halts), jam_cpu s, jam_mem s, jam_log s⟩

/-! ## Round trips -/

/-- P comes back through PHP and PLP when its bit 5 is 1 (R27, R144). -/
theorem setPValue_statusForBreak {c : Cpu} (unused : c.flag .u = true) : setPValue c.p c.statusForBreak = c.p := by
  have every : ∀ p : Byte, getFlag p .u = true → setPValue p (p ||| 0x30) = p := by decide
  exact every c.p unused

/-- Settles O58: the pull reads the slot that the push wrote. -/
theorem pushThenPull : Obligations.PushThenPull := by
  intro s wf unused
  have same : s.cpu.s - 1 + 1 = s.cpu.s := by bv_omega
  refine ⟨⟨_, _, rfl, rfl, ?_, ?_⟩, ⟨_, _, rfl, rfl, ?_, ?_⟩⟩
  all_goals rw [pullValue_cpu, pushValue_cpu, pushValue_mem, same, memRead_memWrite_same wf]
  · rfl
  · rfl
  · exact setPValue_statusForBreak unused
  · rfl

end Sys2Proof.Machine
end

section
/-! PROOFS. The arithmetic of the ALU functions (R105 to R108) and of the shift functions (R122) in integers. -/

namespace Sys2Proof.Machine

/-! ## Bit 7 -/

theorem getLsbD_seven (x : Byte) : x.getLsbD 7 = decide (128 ≤ x.toNat) := by
  rw [← BitVec.msb_eq_getLsbD_last x, BitVec.msb_eq_decide]

theorem and_0x80_ne_zero : ∀ x : Byte, (x &&& 0x80 != 0) = x.getLsbD 7 := by decide

/-- A byte as a signed number. -/
theorem toInt_byte (x : Byte) : x.toInt = if x.toNat < 128 then (x.toNat : Int) else x.toNat - 256 := by
  rw [BitVec.toInt_eq_toNat_cond]
  have := x.isLt
  split <;> split <;> omega

theorem ofNat_byte_toNat (n : Nat) : (BitVec.ofNat 8 n).toNat = n % 256 := BitVec.toNat_ofNat n 8

/-! ## Binary addition and subtraction -/

/-- The flag Z and N of an ALU result. -/
theorem addBin_spec (a m : Byte) (c : Bool) :
    (addBin a m c).value.toNat = (a.toNat + m.toNat + c.toNat) % 256 ∧
      ((addBin a m c).c = true ↔ a.toNat + m.toNat + c.toNat > 255) ∧
      ((addBin a m c).v = true ↔ a.toInt + m.toInt + c.toNat < -128 ∨ a.toInt + m.toInt + c.toNat > 127) ∧
      ((addBin a m c).z = true ↔ (addBin a m c).value = 0) ∧ ((addBin a m c).n = true ↔ (addBin a m c).value.toNat ≥ 128) := by
  have ha := a.isLt
  have hm := m.isLt
  have hc := c.toNat_le
  refine ⟨ofNat_byte_toNat _, decide_eq_true_iff, ?_, beq_iff_eq, ?_⟩
  · simp only [addBin, and_0x80_ne_zero, BitVec.getLsbD_and, BitVec.getLsbD_xor, Bool.and_eq_true, Bool.xor_iff_ne]
    simp only [getLsbD_seven, ofNat_byte_toNat, toInt_byte, ne_eq, decide_eq_decide]
    split <;> split <;> omega
  · simp only [addBin, getLsbD_seven, decide_eq_true_iff, ge_iff_le]

theorem not_byte_toNat (m : Byte) : (~~~m).toNat = 255 - m.toNat := BitVec.toNat_not

theorem subBin_spec (a m : Byte) (c : Bool) :
    ((subBin a m c).value.toNat : Int) = ((a.toNat : Int) - m.toNat - (1 - c.toNat)) % 256 ∧
      ((subBin a m c).c = true ↔ (a.toNat : Int) - m.toNat - (1 - c.toNat) ≥ 0) ∧
      ((subBin a m c).v = true ↔ a.toInt - m.toInt - (1 - c.toNat) < -128 ∨ a.toInt - m.toInt - (1 - c.toNat) > 127) ∧
      ((subBin a m c).z = true ↔ (subBin a m c).value = 0) ∧ ((subBin a m c).n = true ↔ (subBin a m c).value.toNat ≥ 128) := by
  have ha := a.isLt
  have hm := m.isLt
  have hc := c.toNat_le
  refine ⟨?_, ?_, ?_, beq_iff_eq, ?_⟩
  · simp only [subBin, ofNat_byte_toNat, not_byte_toNat]
    omega
  · simp only [subBin, not_byte_toNat, decide_eq_true_iff]
    omega
  · simp only [subBin, and_0x80_ne_zero, BitVec.getLsbD_and, BitVec.getLsbD_xor, Bool.and_eq_true, Bool.xor_iff_ne]
    simp only [getLsbD_seven, ofNat_byte_toNat, not_byte_toNat, toInt_byte, ne_eq, decide_eq_decide]
    split <;> split <;> omega
  · simp only [subBin, getLsbD_seven, decide_eq_true_iff, ge_iff_le]

/-! ## Shifts and rotates -/

theorem asl_toNat (v : Byte) : (v <<< 1).toNat = v.toNat * 2 % 256 := by
  rw [BitVec.toNat_shiftLeft, Nat.shiftLeft_eq]

theorem lsr_toNat (v : Byte) : (v >>> 1).toNat = v.toNat / 2 := by
  rw [BitVec.toNat_ushiftRight, Nat.shiftRight_eq_div_pow]

theorem getLsbD_zero_iff (v : Byte) : v.getLsbD 0 = true ↔ v.toNat % 2 = 1 := by
  rw [BitVec.getLsbD, Nat.testBit_zero, decide_eq_true_iff]

theorem getLsbD_seven_iff (v : Byte) : v.getLsbD 7 = true ↔ v.toNat ≥ 128 := by
  rw [getLsbD_seven, decide_eq_true_iff, ge_iff_le]

/-- The carry enters a rotate at a bit that the shift left 0. -/
theorem rol_toNat (v : Byte) (c : Bool) : (rol v c).1.toNat = v.toNat * 2 % 256 + c.toNat := by
  have every : ∀ v : Byte, ((v <<< 1) ||| 1).toNat = v.toNat * 2 % 256 + 1 := by decide
  cases c with
  | true => exact every v
  | false => exact (congrArg BitVec.toNat BitVec.or_zero).trans (asl_toNat v)

theorem ror_toNat (v : Byte) (c : Bool) : (ror v c).1.toNat = v.toNat / 2 + 128 * c.toNat := by
  have every : ∀ v : Byte, ((v >>> 1) ||| 0x80).toNat = v.toNat / 2 + 128 := by decide
  cases c with
  | true => exact every v
  | false => exact (congrArg BitVec.toNat BitVec.or_zero).trans (lsr_toNat v)

/-- Settles O34: each function by its own lemma. -/
theorem binaryAluAndShiftFunctions : Obligations.BinaryAluAndShiftFunctions :=
  ⟨addBin_spec, subBin_spec, fun v c =>
    ⟨asl_toNat v, getLsbD_seven_iff v, lsr_toNat v, getLsbD_zero_iff v, rol_toNat v c, getLsbD_seven_iff v, ror_toNat v c,
      getLsbD_zero_iff v⟩⟩

/-! ## Decimal addition -/

/-- The nibbles of a byte, masked. -/
theorem nibLo_eq (b : Byte) : (b &&& 0x0F).toNat = nibLo b.toNat := and_0F_toNat b

theorem nibHi_eq : ∀ b : Byte, (b &&& 0xF0).toNat = nibHi b.toNat := by decide

theorem and_0F_nat (n : Nat) : n &&& 0x0F = nibLo n := Nat.and_two_pow_sub_one_eq_mod n 4

/-- A mask of `k` bits from bit 4 on, as division and remainder. -/
theorem and_mask_above_nibble (n k : Nat) : n &&& (2 ^ k - 1) * 2 ^ 4 = n / 2 ^ 4 % 2 ^ k * 2 ^ 4 := by
  apply Nat.eq_of_testBit_eq
  intro i
  simp only [Nat.testBit_and, Nat.testBit_mul_two_pow, Nat.testBit_two_pow_sub_one, Nat.testBit_mod_two_pow, Nat.testBit_div_two_pow]
  by_cases above : 4 ≤ i
  · simp only [above, Nat.sub_add_cancel above, decide_true, Bool.true_and, Bool.and_comm]
  · simp only [above, decide_false, Bool.false_and, Bool.and_false]

theorem and_1F0 (n : Nat) : n &&& 0x1F0 = n / 16 % 32 * 16 := and_mask_above_nibble n 5

theorem and_FF0 (n : Nat) : n &&& 0xFF0 = n / 16 % 256 * 16 := and_mask_above_nibble n 8

theorem testBit_seven (n : Nat) : n.testBit 7 = (BitVec.ofNat 8 n).getLsbD 7 := by
  rw [BitVec.getLsbD_ofNat]
  rfl

/-- The intermediate of R107, by its steps with masks. -/
theorem addDecLow_eq (a m : Byte) (c : Bool) :
    addDecLow a m c =
      let low := (a &&& 0x0F).toNat + (m &&& 0x0F).toNat + c.toNat
      let fixed := if low > 0x09 then low + 0x06 else low
      let high := (a &&& 0xF0).toNat + (m &&& 0xF0).toNat
      if fixed ≤ 0x0F then (fixed &&& 0x0F) + high else (fixed &&& 0x0F) + high + 0x10 := by
  simp only [addDecLow, nibLo_eq, nibHi_eq, and_0F_nat, Nat.add_assoc]

theorem addDec_steps (a m : Byte) (c : Bool) :
    let t := addDecLow a m c
    let t' := if (t &&& 0x1F0) > 0x90 then t + 0x60 else t
    (addDec a m c).value.toNat = t' % 256 ∧ ((addDec a m c).c = true ↔ (t' &&& 0xFF0) > 0xF0) ∧ (addDec a m c).n = t.testBit 7 ∧
      ((addDec a m c).v = true ↔ a.getLsbD 7 ≠ t.testBit 7 ∧ a.getLsbD 7 = m.getLsbD 7) ∧
      ((addDec a m c).z = true ↔ (a.toNat + m.toNat + c.toNat) % 256 = 0) := by
  have equal : ∀ x : Byte, (x &&& 0x80 == 0) = !x.getLsbD 7 := by decide
  simp only [and_1F0, and_FF0, testBit_seven]
  refine ⟨ofNat_byte_toNat _, decide_eq_true_iff, rfl, ?_, ?_⟩
  · simp only [addDec, and_0x80_ne_zero, equal, BitVec.getLsbD_xor, Bool.and_eq_true, Bool.xor_iff_ne, Bool.not_eq_true',
      bne_eq_false_iff_eq]
  · rw [← ofNat_byte_toNat]
    exact beq_iff_eq.trans BitVec.toNat_inj.symm

/-- On packed decimal operands the intermediate has a decimal low digit and the carry in its high part. -/
theorem addDecLow_bcd {a m : Byte} (c : Bool) (bcdA : IsBcd a) (bcdM : IsBcd m) :
    ∃ low high, low ≤ 9 ∧ high ≤ 19 ∧ addDecLow a m c = 16 * high + low ∧ bcdValue a + bcdValue m + c.toNat = 10 * high + low := by
  obtain ⟨highA, lowA⟩ := bcdA
  obtain ⟨highM, lowM⟩ := bcdM
  have hc := c.toNat_le
  have nibbles (n : Nat) : nibLo n = n % 16 ∧ nibHi n = n / 16 % 16 * 16 := ⟨rfl, rfl⟩
  have ⟨loA, hiA⟩ := nibbles a.toNat
  have ⟨loM, hiM⟩ := nibbles m.toNat
  refine ⟨(a.toNat % 16 + m.toNat % 16 + c.toNat) % 10,
    a.toNat / 16 + m.toNat / 16 + (a.toNat % 16 + m.toNat % 16 + c.toNat) / 10, by omega, by omega, ?_, ?_⟩
  · simp only [addDecLow]
    by_cases carry : nibLo a.toNat + nibLo m.toNat + c.toNat > 9
    · have := (nibbles (nibLo a.toNat + nibLo m.toNat + c.toNat + 6)).1
      rw [if_pos carry, if_neg (by omega)]
      omega
    · have := (nibbles (nibLo a.toNat + nibLo m.toNat + c.toNat)).1
      rw [if_neg carry, if_pos (by omega)]
      omega
  · simp only [bcdValue]
    omega

/-- Two packed digits each, added with the carry (R107). -/
theorem addDec_bcd (a m : Byte) (c : Bool) (bcdA : IsBcd a) (bcdM : IsBcd m) :
    IsBcd (addDec a m c).value ∧ bcdValue (addDec a m c).value = (bcdValue a + bcdValue m + c.toNat) % 100 ∧
      ((addDec a m c).c = true ↔ bcdValue a + bcdValue m + c.toNat > 99) := by
  obtain ⟨low, high, lowLe, highLe, sum, value⟩ := addDecLow_bcd c bcdA bcdM
  have digit : (16 * high + low) / 16 % 32 * 16 = 16 * high := by omega
  rw [value]
  simp only [addDec, sum, digit, IsBcd, bcdValue, ofNat_byte_toNat, decide_eq_true_iff]
  by_cases fixed : 16 * high > 0x90
  · have result : (16 * high + low + 0x60) % 256 = 16 * (high - 10) + low := by omega
    rw [if_pos fixed, result]
    omega
  · have result : (16 * high + low) % 256 = 16 * high + low := by omega
    rw [if_neg fixed, result]
    omega

/-- Settles O35: `addDec_steps` and `addDec_bcd`. -/
theorem decimalAddition : Obligations.DecimalAddition := by
  refine ⟨fun a m c => ?_, addDec_bcd⟩
  have steps := addDec_steps a m c
  rw [addDecLow_eq] at steps
  exact steps

/-! ## Decimal subtraction -/

theorem ofInt_byte_toNat (i : Int) : ((BitVec.ofInt 8 i).toNat : Int) = i % 256 := by
  rw [BitVec.toNat_ofInt]
  exact Int.toNat_of_nonneg (Int.emod_nonneg i (by decide))

/-- On packed decimal operands the integer result has a decimal low digit, and the borrow in its high part. -/
theorem subDecInt_bcd {a m : Byte} (c : Bool) (bcdA : IsBcd a) (bcdM : IsBcd m) :
    ∃ low high : Int, 0 ≤ low ∧ low ≤ 9 ∧ -10 ≤ high ∧ high ≤ 9 ∧
      subDecInt a m c = (if high < 0 then 16 * high + low - 0x60 else 16 * high + low) ∧
      (bcdValue a : Int) - bcdValue m - (1 - c.toNat) = 10 * high + low ∧
      ((a.toNat : Int) - m.toNat - (1 - c.toNat) ≥ 0 ↔ high ≥ 0) := by
  obtain ⟨highA, lowA⟩ := bcdA
  obtain ⟨highM, lowM⟩ := bcdM
  have hc := c.toNat_le
  have nibbles (n : Nat) : nibLo n = n % 16 ∧ nibHi n = n / 16 % 16 * 16 := ⟨rfl, rfl⟩
  have ⟨loA, hiA⟩ := nibbles a.toNat
  have ⟨loM, hiM⟩ := nibbles m.toNat
  simp only [subDecInt, bcdValue]
  by_cases borrow : (nibLo a.toNat : Int) - nibLo m.toNat - (1 - c.toNat) < 0
  · refine ⟨(nibLo a.toNat : Int) - nibLo m.toNat - (1 - c.toNat) + 10, (a.toNat / 16 : Nat) - (m.toNat / 16 : Nat) - 1,
      by omega, by omega, by omega, by omega, ?_, by omega, by omega⟩
    rw [if_pos borrow]
    split <;> split <;> omega
  · refine ⟨(nibLo a.toNat : Int) - nibLo m.toNat - (1 - c.toNat), (a.toNat / 16 : Nat) - (m.toNat / 16 : Nat),
      by omega, by omega, by omega, by omega, ?_, by omega, by omega⟩
    rw [if_neg borrow]
    split <;> split <;> omega

/-- Two packed digits each, subtracted with the borrow (R108). -/
theorem subDec_bcd (a m : Byte) (c : Bool) (bcdA : IsBcd a) (bcdM : IsBcd m) :
    IsBcd (subDec a m c).value ∧ (bcdValue (subDec a m c).value : Int) = ((bcdValue a : Int) - bcdValue m - (1 - c.toNat)) % 100 ∧
      ((subDec a m c).c = true ↔ (bcdValue a : Int) - bcdValue m - (1 - c.toNat) ≥ 0) := by
  obtain ⟨low, high, low0, low9, high0, high9, result, value, sign⟩ := subDecInt_bcd c bcdA bcdM
  have carry : (subDec a m c).c = true ↔ high ≥ 0 := (subBin_spec a m c).2.1.trans sign
  have byte : (((subDec a m c).value).toNat : Int) = subDecInt a m c % 256 := ofInt_byte_toNat _
  rw [result] at byte
  rw [carry, value]
  simp only [IsBcd, bcdValue]
  by_cases borrow : high < 0
  · rw [if_pos borrow, show (16 * high + low - 0x60) % 256 = 16 * (high + 10) + low by omega] at byte
    omega
  · rw [if_neg borrow, show (16 * high + low) % 256 = 16 * high + low by omega] at byte
    omega

/-- Settles O36: the result by the steps of R108, the flags those of the binary subtraction; and `subDec_bcd`. -/
theorem decimalSubtraction : Obligations.DecimalSubtraction := by
  refine ⟨fun a m c => ⟨?_, rfl⟩, subDec_bcd⟩
  refine (ofInt_byte_toNat (subDecInt a m c)).trans ?_
  simp only [subDecInt, nibLo_eq, nibHi_eq]

end Sys2Proof.Machine
end

section
/-! PROOFS. Memory (R47, R50 to R52): canonical memories that read alike are the same list of cells. -/

namespace Sys2Proof.Machine

/-! ## Canonical memories -/

theorem memWfFrom_cons {lo j : Nat} {v : Byte} {rest : Memory} :
    memWfFrom lo ((j, v) :: rest) = true ↔ lo ≤ j ∧ j < 65536 ∧ v ≠ Config.unlistedByte ∧ memWfFrom (j + 1) rest = true := by
  simp only [memWfFrom, Bool.and_eq_true, decide_eq_true_iff, and_assoc]

theorem memGet_cons_self (j : Nat) (v : Byte) (rest : Memory) : memGet j ((j, v) :: rest) = v := if_pos rfl

/-- A memory that lists its first key at `j` reads otherwise there than one whose keys are all above `j`. -/
theorem not_alike_of_first_key {lo j lo' : Nat} {v : Byte} {rest m' : Memory} (wf : memWfFrom lo ((j, v) :: rest) = true)
    (wf' : memWfFrom lo' m' = true) (above : j < lo') : memGet j ((j, v) :: rest) ≠ memGet j m' := by
  rw [memGet_cons_self, memGet_below wf' above]
  exact (memWfFrom_cons.1 wf).2.2.1

/-- Canonical memories that read alike at every key are equal. -/
theorem eq_of_memGet {lo : Nat} {m m' : Memory} (wf : memWfFrom lo m = true) (wf' : memWfFrom lo m' = true)
    (alike : ∀ k, k < 65536 → memGet k m = memGet k m') : m = m' := by
  induction m generalizing lo m' with
  | nil =>
    cases m' with
    | nil => rfl
    | cons cell' rest' =>
      obtain ⟨j', v'⟩ := cell'
      obtain ⟨-, top, listed, -⟩ := memWfFrom_cons.1 wf'
      have read := alike j' top
      rw [memGet_cons_self] at read
      exact absurd read.symm listed
  | cons cell rest ih =>
    obtain ⟨j, v⟩ := cell
    obtain ⟨-, top, listed, more⟩ := memWfFrom_cons.1 wf
    cases m' with
    | nil =>
      have read := alike j top
      rw [memGet_cons_self] at read
      exact absurd read listed
    | cons cell' rest' =>
      obtain ⟨j', v'⟩ := cell'
      obtain ⟨-, top', listed', more'⟩ := memWfFrom_cons.1 wf'
      rcases Nat.lt_trichotomy j j' with below | rfl | above
      · exact absurd (alike j top) (not_alike_of_first_key wf (memWfFrom_cons.2 ⟨Nat.le_refl j', top', listed', more'⟩) below)
      · obtain rfl : v = v' := by simpa only [memGet_cons_self] using alike j top
        refine congrArg _ (ih more more' fun k le => ?_)
        have read := alike k le
        by_cases first : j = k
        · rw [← first, memGet_below more (Nat.lt_succ_self j), memGet_below more' (Nat.lt_succ_self j)]
        · simpa only [memGet, first, if_false] using read
      · exact absurd (alike j' top').symm (not_alike_of_first_key wf' (memWfFrom_cons.2 ⟨Nat.le_refl j, top, listed, more⟩) above)

/-- Canonical memories that read alike at every address are equal. -/
theorem memory_ext {m m' : Memory} (wf : Memory.wf m = true) (wf' : Memory.wf m' = true)
    (alike : ∀ a, memRead m a = memRead m' a) : m = m' :=
  eq_of_memGet wf wf' fun k top => by
    have read := alike (BitVec.ofNat 16 k)
    rwa [memRead, memRead, BitVec.toNat_ofNat, Nat.mod_eq_of_lt (by exact top)] at read

/-! ## Words -/

/-- The next address wraps at the top of memory (R25). -/
theorem Word.add_one_eq_ofNat (a : Word) : a + 1 = BitVec.ofNat 16 ((a.toNat + 1) % 65536) := by
  apply BitVec.eq_of_toNat_eq
  rw [BitVec.toNat_ofNat, BitVec.toNat_add, Nat.mod_mod]
  rfl

theorem Word.ne_add_one (a : Word) : a ≠ a + 1 := by bv_omega

theorem memRead16_toNat (m : Memory) (a : Word) :
    (memRead16 m a).toNat = (memRead m a).toNat + 256 * (memRead m (BitVec.ofNat 16 ((a.toNat + 1) % 65536))).toNat := by
  rw [memRead16, mkWord_toNat, ← Word.add_one_eq_ofNat]
  omega

theorem memRead16_memWrite16 {m : Memory} (wf : Memory.wf m = true) (a w : Word) : memRead16 (memWrite16 m a w) a = w := by
  have low := memWrite_wf wf a (loByte w)
  rw [memRead16, memWrite16, memRead_memWrite_same low, memRead_memWrite_ne low (Word.ne_add_one a).symm,
    memRead_memWrite_same wf, mkWord_hiByte_loByte]

/-- Settles O37: writes by `memRead_memWrite`, words by their two bytes, and `memory_ext`. -/
theorem memoryReadsAndWrites : Obligations.MemoryReadsAndWrites := by
  refine ⟨fun m a b v wf => ⟨memWrite_wf wf a v, ?_⟩, memRead16_toNat, fun m a w wf => memRead16_memWrite16 wf a w,
    fun m m' wf wf' alike => memory_ext wf wf' alike⟩
  rw [memRead_memWrite wf]
  exact if_congr eq_comm rfl rfl

end Sys2Proof.Machine
end

section
/-! PROOFS. The status byte (R26 to R29), reset (R241, R242), the host's writes and the interrupt lines (R43, R225 to R228), and the
frozen core (R222). -/

namespace Sys2Proof.Machine

/-! ## The status byte -/

theorem getFlag_statusForBreak (c : Cpu) (f : Flag) : getFlag c.statusForBreak f = if f = .b ∨ f = .u then true else c.flag f := by
  cases f <;> simp [getFlag, Cpu.statusForBreak, Cpu.flag, Flag.bit]

theorem getFlag_statusForInterrupt (c : Cpu) (f : Flag) :
    getFlag c.statusForInterrupt f = if f = .b then false else if f = .u then true else c.flag f := by
  cases f <;> simp [getFlag, Cpu.statusForInterrupt, Cpu.flag, Flag.bit]

/-- Settles O39: a flag is one bit of P, and the pushed bytes are masks of P. -/
theorem statusByteWrites : Obligations.StatusByteWrites := by
  refine ⟨fun p f g on => ?_, fun p => rfl, fun v c => rfl, getFlag_statusForBreak, getFlag_statusForInterrupt⟩
  rw [getFlag_putFlag]
  exact if_congr eq_comm rfl rfl

/-! ## Steps and reset -/

theorem boundaryEvent_eq_none {c : Cpu} (nmi : c.nmi = false) (irq : c.irq = true → c.flag .i = true) : c.boundaryEvent = none := by
  cases pending : c.irq with
  | false => simp [Cpu.boundaryEvent, nmi, pending]
  | true => simp [Cpu.boundaryEvent, nmi, irq pending]

/-- Settles O46: no event is taken, and the bytes at PC decode. -/
theorem stepRunsDecodedInstruction : Obligations.StepRunsDecodedInstruction := by
  intro s i rest idle live nmi irq decoded
  have next : s.nextInstr = .ok (i, rest) := decoded
  rw [step_of_idle live idle, boundaryStep, boundaryEvent_eq_none nmi irq, runInstruction, next]

/-- Settles O48: reset reads the vector and changes the core alone. -/
theorem resetValues : Obligations.ResetValues :=
  ⟨fun s => ⟨hostReset_cpu s, hostReset_mem s, rfl⟩, reset_eq_hostReset, rfl, fun _ _ _ => ⟨rfl, rfl⟩⟩

/-- A core after reset is at rest at a boundary, its P with bit 5 at 1 (R242). -/
theorem afterReset_sound (pc : Word) : (Cpu.afterReset pc).Sound :=
  ⟨show getFlag 0x20 .u = true by decide, engineOk_of_atRest (.inl rfl) ⟨rfl, rfl⟩, rfl⟩

/-- Settles O49: `afterReset_sound`, with the memory as it was. -/
theorem resetIsSound : Obligations.ResetIsSound :=
  ⟨⟨afterReset_sound 0, reset_mem_wf⟩, fun s wf => ⟨afterReset_sound (memRead16 s.bus.mem Config.resetVector), wf⟩⟩

/-! ## The frozen core -/

section
variable {β : Type} (P : Params) (B : Bus β)

theorem advanceOn_of_invalid {s : Sys β} {f : InvalidOpcode} (frozen : s.cpu.invalid = some f) :
    advanceOn P B s = (.invalidOpcode f.op f.addr, s) := by
  simp only [advanceOn, frozen]

theorem stepOn_of_invalid {s : Sys β} {f : InvalidOpcode} (frozen : s.cpu.invalid = some f) (n : Nat) :
    stepOn P B (n + 1) s = (.invalidOpcode f.op f.addr, 0, s) := by
  rw [stepOn, advanceOn_of_invalid P B frozen]
  simp

/-- A table miss freezes the core after the opcode fetch (R222). -/
theorem startInstruction_miss {s : Sys β} (miss : P.table (B.peek s.bus s.cpu.pc).1 = none) :
    startInstruction P B s = (.invalidOpcode (B.peek s.bus s.cpu.pc).1 s.cpu.pc,
      ⟨{ s.cpu.incPc with phase := .fetching, latches := {}, invalid := some ⟨(B.peek s.bus s.cpu.pc).1, s.cpu.pc⟩ },
        (B.peek s.bus s.cpu.pc).2⟩) := by
  have miss : P.table (Cycle.perform P B .nop .fetchOpcode s).1.cpu.latches.opcode = none := miss
  simp only [startInstruction, miss]
  rfl

end

/-- Settles O59: `startInstruction_miss`, and the frozen core answers its fault. -/
theorem invalidOpcodeFreezes : Obligations.InvalidOpcodeFreezes := by
  intro β P B s idle live quiet op miss
  rw [advanceOn_of_no_event P B idle live quiet, startInstruction_miss P B (s := s.mapCpu Cpu.tick) miss]
  exact ⟨rfl, rfl, rfl, rfl, rfl, rfl, rfl, rfl, rfl, rfl, rfl, rfl, advanceOn_of_invalid P B (f := ⟨op, s.cpu.pc⟩) rfl,
    stepOn_of_invalid P B (f := ⟨op, s.cpu.pc⟩) rfl⟩

/-! ## The host's writes -/

theorem hostWrite_of_idle {s : State} (idle : s.cpu.phase = .idle) (f : Cpu → Cpu) : hostWrite f s = .next (s.mapCpu f) := if_pos idle

theorem hostWrite_of_ne_idle {s : State} (busy : s.cpu.phase ≠ .idle) (f : Cpu → Cpu) :
    hostWrite f s = .refused .hostWriteInFlight := if_neg busy

/-! ## The lines -/

section
variable {β : Type} (P : Params) (B : Bus β)

/-- What a call away from a boundary does with the lines: it leaves them, starts no interrupt, and does not look at them. -/
structure IgnoresLines (call : Sys β → CallResult × Sys β) (s : Sys β) : Prop where
  nmi : (call s).2.cpu.nmi = s.cpu.nmi
  irq : (call s).2.cpu.irq = s.cpu.irq
  noInterrupt : s.cpu.phase ≠ .handlingInterrupt → (call s).2.cpu.phase ≠ .handlingInterrupt
  blind : ∀ inp : LineInput, call (s.mapCpu (Cpu.setLines inp)) = ((call s).1, (call s).2.mapCpu (Cpu.setLines inp))

/-- A call that answers `r` and does nothing. -/
theorem ignoresLines_of_skip {call : Sys β → CallResult × Sys β} {s : Sys β} {r : CallResult}
    (skip : ∀ inp : LineInput, call (s.mapCpu (Cpu.setLines inp)) = (r, s.mapCpu (Cpu.setLines inp))) : IgnoresLines call s := by
  have same : call s = (r, s) := skip {}
  exact ⟨by rw [same], by rw [same], fun h => by rw [same]; exact h, fun inp => by rw [skip inp, same]⟩

variable {s : Sys β}

theorem advanceCounted_interrupt (inside : s.cpu.phase = .handlingInterrupt) {cy : Cycle}
    (next : interruptCycles[s.cpu.micro]? = some cy) : advanceCounted P B s = (.ok, interruptCycle P B cy s) := by
  simp only [advanceCounted, inside, next]

theorem advanceCounted_interrupt_none (inside : s.cpu.phase = .handlingInterrupt) (next : interruptCycles[s.cpu.micro]? = none) :
    advanceCounted P B s = (.noSuchCycle, s) := by
  simp only [advanceCounted, inside, next]

theorem advanceCounted_instruction (inside : s.cpu.phase = .fetching ∨ s.cpu.phase = .resolvingAddress ∨ s.cpu.phase = .executing)
    {row : Row} {cycles : List Cycle} (flight : s.cpu.inFlight P = some (row, cycles)) {cy : Cycle}
    (next : cycles[s.cpu.micro]? = some cy) : advanceCounted P B s = (.ok, instructionCycle P B row cy s) := by
  rcases inside with inside | inside | inside <;> simp only [advanceCounted, inside, flight, next]

theorem advanceCounted_instruction_none
    (inside : s.cpu.phase = .fetching ∨ s.cpu.phase = .resolvingAddress ∨ s.cpu.phase = .executing)
    (outside : ∀ row cycles, s.cpu.inFlight P = some (row, cycles) → cycles[s.cpu.micro]? = none) :
    advanceCounted P B s = (.noSuchCycle, s) := by
  cases flight : s.cpu.inFlight P with
  | none => rcases inside with inside | inside | inside <;> simp only [advanceCounted, inside, flight]
  | some entry =>
    have next := outside entry.1 entry.2 flight
    rcases inside with inside | inside | inside <;> simp only [advanceCounted, inside, flight, next]

/-- A call away from a boundary ignores the lines (R225, R227). -/
theorem advanceCounted_ignoresLines (busy : s.cpu.phase ≠ .idle) : IgnoresLines (advanceCounted P B) s := by
  by_cases halted : s.cpu.phase = .halted
  · exact ignoresLines_of_skip fun inp => advanceCounted_halted P B halted
  by_cases interrupt : s.cpu.phase = .handlingInterrupt
  · cases next : interruptCycles[s.cpu.micro]? with
    | none => exact ignoresLines_of_skip fun inp => advanceCounted_interrupt_none P B interrupt next
    | some cy =>
      have call := fun inp => advanceCounted_interrupt (s := s.mapCpu (Cpu.setLines inp)) P B interrupt next
      have same : advanceCounted P B s = (.ok, interruptCycle P B cy s) := call {}
      have lines := interruptCycle_lines P B cy s
      exact ⟨by rw [same]; exact (lines {}).2.1, by rw [same]; exact (lines {}).2.2, absurd interrupt,
        fun inp => by rw [call, same, (lines inp).1]⟩
  · have inside : s.cpu.phase = .fetching ∨ s.cpu.phase = .resolvingAddress ∨ s.cpu.phase = .executing := by
      cases h : s.cpu.phase <;> simp_all
    by_cases outside : ∀ row cycles, s.cpu.inFlight P = some (row, cycles) → cycles[s.cpu.micro]? = none
    · exact ignoresLines_of_skip fun inp => advanceCounted_instruction_none P B inside outside
    · simp only [not_forall] at outside
      obtain ⟨row, cycles, flight, next⟩ := outside
      obtain ⟨cy, next⟩ := Option.ne_none_iff_exists'.1 next
      have call := fun inp => advanceCounted_instruction (s := s.mapCpu (Cpu.setLines inp)) P B inside flight next
      have same : advanceCounted P B s = (.ok, instructionCycle P B row cy s) := call {}
      have lines := instructionCycle_lines P B row cy s
      exact ⟨by rw [same]; exact (lines {}).2.1, by rw [same]; exact (lines {}).2.2.1, fun _ => by rw [same]; exact (lines {}).2.2.2,
        fun inp => by rw [call, same, (lines inp).1]⟩

theorem advanceOn_ignoresLines (busy : s.cpu.phase ≠ .idle) : IgnoresLines (advanceOn P B) s := by
  cases live : s.cpu.invalid with
  | some f => exact ignoresLines_of_skip fun inp => advanceOn_of_invalid P B live
  | none =>
    have call := fun inp => advanceOn_of_live P B (s := s.mapCpu (Cpu.setLines inp)) live
    have same : advanceOn P B s = advanceCounted P B (s.mapCpu Cpu.tick) := call {}
    obtain ⟨nmi, irq, noInterrupt, blind⟩ := advanceCounted_ignoresLines P B (s := s.mapCpu Cpu.tick) busy
    exact ⟨by rw [same, nmi]; rfl, by rw [same, irq]; rfl, fun h => by rw [same]; exact noInterrupt h,
      fun inp => by rw [call, same]; exact blind inp⟩

end

/-- A latched NMI is served by the cycle that begins at a boundary (R228, R230). -/
theorem clockCycle_nmi {s : State} (idle : s.cpu.phase = .idle) (live : s.cpu.invalid = none) :
    ∃ t, clockCycle ⟨some true, none⟩ s = .next t ∧ t.cpu.phase = .handlingInterrupt ∧ t.cpu.nmi = false ∧ t.cpu.irq = s.cpu.irq := by
  have call := advanceOn_interrupt (s := (s.hostSetLines ⟨some true, none⟩).toSys) (e := .nmi) idle live rfl
  exact ⟨Sys.toState _, by rw [clockCycle, advance, call]; exact outcomeOf_of_ok (.inl rfl) _, rfl, rfl, rfl⟩

/-- Settles O60: `advanceOn_ignoresLines` away from a boundary, `clockCycle_nmi` at one. -/
theorem hostWritesAndLines : Obligations.HostWritesAndLines := by
  refine ⟨fun s v w idle => ?_, fun s v w busy => ?_, fun s n q => ⟨rfl, rfl, rfl⟩, fun s idle live => clockCycle_nmi idle live,
    fun β P B s busy => ?_⟩
  · have write := hostWrite_of_idle idle
    exact ⟨write _, write _, write _, write _, write _, write _⟩
  · have refuse := hostWrite_of_ne_idle busy
    exact ⟨refuse _, refuse _, refuse _, refuse _, refuse _, refuse _⟩
  · obtain ⟨nmi, irq, noInterrupt, blind⟩ := advanceOn_ignoresLines P B busy
    exact ⟨nmi, irq, noInterrupt, blind⟩

end Sys2Proof.Machine
end

section
/-! PROOFS. What an instruction may write (R22, R23, R30 to R37): every entry's run is one effect on the registers, with PC and the
counters moved; the writers of each flag and register are read off the effects. -/

namespace Sys2Proof.Machine

/-! ## The effect of an entry -/

/-- The effects an entry can have on the core, but for PC and the counters. -/
inductive EntryEffect (r : Row) : (Cpu → Cpu) → Prop
  | none : EntryEffect r id
  | read (m : Byte) : EntryEffect r (readEffect {} r.mnemonic m)
  | unstable {regs : Cpu → Byte × Cpu} (h : unstableEffect r.mnemonic = some regs) : EntryEffect r fun c => (regs c).2
  | modify (m : Byte) : EntryEffect r fun c => (modifyEffect r.mnemonic m c).2
  | accumulator (h : r.mode = .accumulator) : EntryEffect r (onAccumulator (modifyEffect r.mnemonic))
  | implied : EntryEffect r (impliedEffect r.mnemonic)
  | stack (h : r.mnemonic ∈ [.pha, .php, .jsr, .rts]) (sp : Byte) : EntryEffect r fun c => { c with s := sp }
  | pla (h : r.mnemonic = .pla) (sp v : Byte) : EntryEffect r fun c => ({ c with s := sp } : Cpu).opPla v
  | status (h : r.mnemonic ∈ [.plp, .rti]) (sp v : Byte) : EntryEffect r fun c => ({ c with s := sp } : Cpu).setP v
  | brk (h : r.mnemonic = .brk) (sp : Byte) : EntryEffect r fun c => ({ c with s := sp } : Cpu).setFlag .i true
  | jam (h : r.mnemonic = .jam) : EntryEffect r fun c => { c with phase := .halted }

/-- A run of entry `r` from core `c` to core `d` is one of its effects, with PC and the counters moved. -/
def EntryRuns (r : Row) (c d : Cpu) : Prop :=
  ∃ f, EntryEffect r f ∧ ∃ pc n k, d = (f c).moved pc n k

theorem runsTo_of_short {r : Row} (short : longControl r.mnemonic = false) (b1 b2 : Byte) (s : State) :
    EntryRuns r s.cpu (runControl r.mnemonic r.mode b1 b2 s).cpu := by
  rw [Flight.runControl_of_short short]
  split
  · exact ⟨_, .none, _, _, _, branch_cpu ..⟩
  · split
    · next acc =>
      refine ⟨_, .accumulator acc, s.cpu.pc + 1, s.cpu.cycles + 2, s.cpu.instructions + 1,
        (implied_cpu ..).trans (congrArg Cpu.retire (onAccumulator_moved r.mnemonic _ _ s.cpu.instructions s.cpu))⟩
    · refine ⟨_, .implied, s.cpu.pc + 1, s.cpu.cycles + 2, s.cpu.instructions + 1,
        (implied_cpu ..).trans (congrArg Cpu.retire (impliedEffect_moved r.mnemonic _ _ s.cpu.instructions s.cpu))⟩

theorem runsTo_of_long {r : Row} (long : longControl r.mnemonic = true) (b1 b2 : Byte) (s : State) :
    EntryRuns r s.cpu (runControl r.mnemonic r.mode b1 b2 s).cpu := by
  cases mn : r.mnemonic with
  | jmp =>
    simp only [runControl]
    split
    · exact ⟨_, .none, _, _, _, jumpIndirect_cpu ..⟩
    · exact ⟨_, .none, _, _, _, jumpAbsolute_cpu ..⟩
  | jsr => exact ⟨_, .stack (by rw [mn]; decide) (s.cpu.s - 1 - 1), _, _, _, jumpToSubroutine_cpu s (mkWord b2 b1)⟩
  | rts => exact ⟨_, .stack (by rw [mn]; decide) (s.cpu.s + 1 + 1), _, _, _, returnFromSubroutine_cpu s⟩
  | rti => exact ⟨_, .status (by rw [mn]; decide) _ _, _, _, _, returnFromInterrupt_cpu ..⟩
  | brk => exact ⟨_, .brk mn _, _, _, _, breakInterrupt_cpu ..⟩
  | pha => exact ⟨_, .stack (by rw [mn]; decide) (s.cpu.s - 1), _, _, _, pushValue_cpu s Cpu.opPha⟩
  | php => exact ⟨_, .stack (by rw [mn]; decide) (s.cpu.s - 1), _, _, _, pushValue_cpu s Cpu.opPhp⟩
  | pla => exact ⟨_, .pla mn _ _, _, _, _, pullValue_cpu ..⟩
  | plp => exact ⟨_, .status (by rw [mn]; decide) _ _, _, _, _, pullValue_cpu ..⟩
  | _ => rw [mn] at long; cases long

/-- JAM alone halts (R191). -/
theorem HasRow.mnemonic_of_halt {i : Instr} {r : Row} (h : HasRow i r) (cls : r.cls = .halt) : r.mnemonic = .jam := by
  have mem := h.class_mem
  rw [cls] at mem
  cases mn : r.mnemonic with
  | jam => rfl
  | _ => exact absurd mem (by rw [mn]; decide)

theorem runsTo {i : Instr} {r : Row} (h : HasRow i r) (s : State) : EntryRuns r s.cpu (runRow r i.b1 i.b2 s).cpu := by
  cases cls : r.cls with
  | halt =>
    simp only [runRow, cls]
    exact ⟨_, .jam (h.mnemonic_of_halt cls), _, _, _, jam_cpu s⟩
  | control =>
    simp only [runRow, cls]
    cases long : longControl r.mnemonic with
    | false => exact runsTo_of_short long ..
    | true => exact runsTo_of_long long ..
  | read => exact ⟨_, .read _, _, _, _, (runRow_read h cls s).1⟩
  | write =>
    cases unstable : unstableEffect r.mnemonic with
    | none =>
      obtain ⟨ea, -, cpu, -⟩ := runRow_write h cls unstable s
      exact ⟨_, .none, _, _, _, cpu⟩
    | some regs =>
      obtain ⟨ea0, ea, crossed, -, cpu, -⟩ := runRow_unstable h cls unstable s
      exact ⟨_, .unstable unstable, _, _, _, cpu⟩
  | rmw =>
    obtain ⟨ea, -, cpu, -⟩ := runRow_rmw h cls s
    exact ⟨_, .modify _, _, _, _, cpu⟩

/-! ## Flags -/

section
variable {r : Row} {f : Cpu → Cpu} (effect : EntryEffect r f) (c : Cpu)
include effect

/-- An effect keeps the flags that its mnemonic does not write. -/
theorem effect_flag {g : Flag} (h : g ∉ writtenFlags r.mnemonic) (unused : c.flag .u = true) : (f c).flag g = c.flag g := by
  cases effect with
  | none | stack | jam => rfl
  | read m => exact readEffect_flag h c {} m
  | unstable regs => exact congrArg (getFlag · g) (unstableEffect_p regs c)
  | modify m => exact modifyEffect_flag h c m
  | accumulator => exact onAccumulator_flag h c
  | implied => exact impliedEffect_flag h c
  | pla mn sp v =>
    rw [mn] at h
    exact keeps c (l := nz v) h (List.Subset.refl _) (congrArg Cpu.p (opPla_eq_setFlags v { c with s := sp }))
  | status mn sp v =>
    have h : g ∉ [Flag.c, .z, .i, .d, .v, .n] := by
      simp only [List.mem_cons, List.not_mem_nil, or_false] at mn
      obtain mn | mn := mn <;> rwa [mn] at h
    exact flag_setP_ne { c with s := sp } h unused v
  | brk mn sp =>
    rw [mn] at h
    exact keeps c (l := [(.i, true)]) h (List.Subset.refl _) rfl

end

/-! ## Registers -/

/-- The registers A, X, Y and S. -/
inductive Register where
  | a | x | y | s
deriving DecidableEq

/-- The value of a register. -/
def Cpu.register (c : Cpu) : Register → Byte
  | .a => c.a
  | .x => c.x
  | .y => c.y
  | .s => c.s

/-- The registers that an entry may change; a shift changes A in accumulator mode alone (R22, R23). -/
def writtenRegisters (mn : Mnemonic) (mode : Mode) : List Register :=
  match mn with
  | .lda | .txa | .tya | .adc | .sbc | .and | .ora | .eor | .slo | .rla | .sre | .rra | .isc | .anc | .alr | .arr | .ane => [.a]
  | .asl | .lsr | .rol | .ror => if mode = .accumulator then [.a] else []
  | .lax | .lxa => [.a, .x]
  | .las => [.a, .x, .s]
  | .ldx | .tax | .tsx | .inx | .dex | .sbx => [.x]
  | .ldy | .tay | .iny | .dey => [.y]
  | .pla => [.a, .s]
  | .txs | .tas | .pha | .php | .plp | .jsr | .rts | .rti | .brk => [.s]
  | _ => []

/-- Outside accumulator mode the registers written are the mnemonic's. -/
theorem mem_writtenRegisters {mn : Mnemonic} {mode : Mode} {q : Register} (h : q ∈ writtenRegisters mn mode) :
    q ∈ writtenRegisters mn .implied ∨ mode = .accumulator ∧ q = .a ∧ mn ∈ [.asl, .lsr, .rol, .ror] := by
  cases mn with
  | asl | lsr | rol | ror =>
    by_cases acc : mode = .accumulator
    · rw [acc] at h
      exact .inr ⟨acc, List.mem_singleton.1 h, by decide⟩
    · rw [writtenRegisters, if_neg acc] at h
      cases h
  | _ => exact .inl h

section
variable {mn : Mnemonic} {mode : Mode} {q : Register} (h : q ∉ writtenRegisters mn mode) (c : Cpu)
include h

theorem readEffect_register (m : Byte) : (readEffect {} mn m c).register q = c.register q := by
  cases mn with
  | lda | adc | sbc | and | ora | eor | anc | alr | ane =>
    cases q with
    | a => exact absurd (by decide : Register.a ∈ [Register.a]) h
    | x | y | s => rfl
  | arr =>
    obtain ⟨r, p, arr⟩ : ∃ r p, readEffect {} .arr m c = { c with a := r, p := p } := by
      cases d : c.flag .d with
      | false => exact ⟨_, _, readEffect_arr_binary m d⟩
      | true => exact ⟨_, _, readEffect_arr_decimal m d⟩
    rw [arr]
    cases q with
    | a => exact absurd (by decide : Register.a ∈ [Register.a]) h
    | x | y | s => rfl
  | lax | lxa =>
    cases q with
    | a | x => exact absurd (by decide) (show _ ∉ [Register.a, .x] from h)
    | y | s => rfl
  | las =>
    cases q with
    | a | x | s => exact absurd (by decide) (show _ ∉ [Register.a, .x, .s] from h)
    | y => rfl
  | ldx | sbx =>
    cases q with
    | x => exact absurd (by decide : Register.x ∈ [Register.x]) h
    | a | y | s => rfl
  | ldy =>
    cases q with
    | y => exact absurd (by decide : Register.y ∈ [Register.y]) h
    | a | x | s => rfl
  | _ => rfl

theorem modifyEffect_register (m : Byte) : (modifyEffect mn m c).2.register q = c.register q := by
  cases mn with
  | slo | rla | sre =>
    cases q with
    | a => exact absurd (by decide : Register.a ∈ [Register.a]) h
    | x | y | s => rfl
  | rra =>
    rw [modifyEffect_rra]
    cases q with
    | a => exact absurd (by decide : Register.a ∈ [Register.a]) h
    | x | y | s => rfl
  | dcp => rw [modifyEffect_dcp]; cases q <;> rfl
  | isc =>
    rw [modifyEffect_isc]
    cases q with
    | a => exact absurd (by decide : Register.a ∈ [Register.a]) h
    | x | y | s => rfl
  | _ => rfl

theorem impliedEffect_register : (impliedEffect mn c).register q = c.register q := by
  cases mn with
  | txa | tya =>
    cases q with
    | a => exact absurd (by decide : Register.a ∈ [Register.a]) h
    | x | y | s => rfl
  | tax | tsx | inx | dex =>
    cases q with
    | x => exact absurd (by decide : Register.x ∈ [Register.x]) h
    | a | y | s => rfl
  | tay | iny | dey =>
    cases q with
    | y => exact absurd (by decide : Register.y ∈ [Register.y]) h
    | a | x | s => rfl
  | txs =>
    cases q with
    | s => exact absurd (by decide : Register.s ∈ [Register.s]) h
    | a | x | y => rfl
  | _ => rfl

/-- In accumulator mode a shift writes A alone. -/
theorem onAccumulator_register (acc : mode = .accumulator) (shift : mn ∈ [.asl, .lsr, .rol, .ror]) :
    (onAccumulator (modifyEffect mn) c).register q = c.register q := by
  subst acc
  simp only [List.mem_cons, List.not_mem_nil, or_false] at shift
  obtain rfl | rfl | rfl | rfl := shift <;>
    cases q with
    | a => exact absurd (by decide : Register.a ∈ [Register.a]) h
    | x | y | s => rfl

theorem unstableEffect_register {regs : Cpu → Byte × Cpu} (unstable : unstableEffect mn = some regs) :
    (regs c).2.register q = c.register q := by
  cases mn with
  | tas =>
    cases unstable
    cases q with
    | s => exact absurd (by decide : Register.s ∈ [Register.s]) h
    | a | x | y => rfl
  | sha | shx | shy =>
    cases unstable
    rfl
  | _ => cases unstable

end

/-- A change of S alone keeps the other registers. -/
theorem register_withS {mn : Mnemonic} {mode : Mode} {q : Register} (h : q ∉ writtenRegisters mn mode)
    (sp : Register.s ∈ writtenRegisters mn mode) (c : Cpu) (v : Byte) : ({ c with s := v } : Cpu).register q = c.register q := by
  cases q with
  | s => exact absurd sp h
  | a | x | y => rfl

theorem effect_register {r : Row} {f : Cpu → Cpu} (effect : EntryEffect r f) {q : Register}
    (shifts : r.mode = .accumulator → r.mnemonic ∈ [.asl, .lsr, .rol, .ror]) (c : Cpu)
    (h : q ∉ writtenRegisters r.mnemonic r.mode) : (f c).register q = c.register q := by
  cases effect with
  | none => rfl
  | jam => cases q <;> rfl
  | read m => exact readEffect_register h c m
  | unstable regs => exact unstableEffect_register h c regs
  | modify m => exact modifyEffect_register h c m
  | accumulator acc => exact onAccumulator_register h c acc (shifts acc)
  | implied => exact impliedEffect_register h c
  | stack mn sp =>
    refine register_withS h ?_ c sp
    simp only [List.mem_cons, List.not_mem_nil, or_false] at mn
    obtain mn | mn | mn | mn := mn <;> rw [mn] <;> exact List.mem_singleton_self _
  | pla mn sp v =>
    rw [mn] at h
    cases q with
    | a | s => exact absurd (by decide) (show _ ∉ [Register.a, .s] from h)
    | x | y => rfl
  | status mn sp v =>
    have kept := register_withS h (by
      simp only [List.mem_cons, List.not_mem_nil, or_false] at mn
      obtain mn | mn := mn <;> rw [mn] <;> exact List.mem_singleton_self _) c sp
    cases q <;> exact kept
  | brk mn sp =>
    have kept := register_withS h (by rw [mn]; exact List.mem_singleton_self _) c sp
    cases q <;> exact kept

/-! ## The engine -/

/-- All that no instruction but JAM changes: the engine's state, the lines and the fault. -/
structure SameEngine (c d : Cpu) : Prop where
  micro : d.micro = c.micro
  latches : d.latches = c.latches
  nmi : d.nmi = c.nmi
  irq : d.irq = c.irq
  invalid : d.invalid = c.invalid

theorem OnRegs.sameEngine {f : Cpu → Cpu} (h : OnRegs f) (c : Cpu) : SameEngine c (f c) ∧ (f c).phase = c.phase := by
  rw [h.eq_withRegs c]
  exact ⟨⟨rfl, rfl, rfl, rfl, rfl⟩, rfl⟩

theorem effect_sameEngine {r : Row} {f : Cpu → Cpu} (effect : EntryEffect r f) (c : Cpu) :
    SameEngine c (f c) ∧ ((f c).phase = c.phase ∨ r.mnemonic = .jam) := by
  have ofRegs {g : Cpu → Cpu} (h : OnRegs g) : SameEngine c (g c) ∧ ((g c).phase = c.phase ∨ r.mnemonic = .jam) :=
    ⟨(h.sameEngine c).1, .inl (h.sameEngine c).2⟩
  cases effect with
  | none => exact ofRegs fun _ _ => rfl
  | read m => exact ofRegs (onRegs_readEffect {} r.mnemonic m)
  | unstable regs => exact ofRegs (onRegs_unstableEffect regs)
  | modify m => exact ofRegs (onRegs_modifyEffect r.mnemonic m)
  | accumulator => exact ofRegs (onRegs_onAccumulator r.mnemonic)
  | implied => exact ofRegs (onRegs_impliedEffect r.mnemonic)
  | stack | pla | status | brk => exact ⟨⟨rfl, rfl, rfl, rfl, rfl⟩, .inl rfl⟩
  | jam mn => exact ⟨⟨rfl, rfl, rfl, rfl, rfl⟩, .inr mn⟩

/-! ## The obligations -/

/-- A well-formed instruction that answers a next state has run as its entry. -/
theorem exec_runsTo {i : Instr} (wf : i.WellFormed) {s t : State} (next : exec i s = .next t) :
    ∃ r, HasRow i r ∧ EntryRuns r s.cpu t.cpu := by
  obtain ⟨r, row, runs⟩ := exec_runs wf s
  rw [runs] at next
  cases next
  exact ⟨r, row, runsTo row s⟩

/-- The accumulator's entries are the shifts' (R71). -/
theorem HasRow.shift_of_accumulator {i : Instr} {r : Row} (h : HasRow i r) (acc : r.mode = .accumulator) :
    r.mnemonic ∈ [.asl, .lsr, .rol, .ror] := by
  have t := table_class i.opcode
  have e : opcodeTable i.opcode = some r := h.entry
  simp only [e, Option.all_some, Bool.and_eq_true, acc, bne_self_eq_false, Bool.false_or, List.contains_iff_mem] at t
  exact t.2

/-- Settles O54: a flag that changed is in the mnemonic's list of written flags (`effect_flag`). -/
theorem flagWriters : Obligations.FlagWriters := by
  intro i s t wf unused next
  obtain ⟨r, row, f, effect, pc, n, k, cpu⟩ := exec_runsTo wf next
  have written (g : Flag) (changed : t.cpu.flag g ≠ s.cpu.flag g) : g ∈ writtenFlags r.mnemonic := by
    by_contra notWritten
    rw [cpu] at changed
    exact changed (effect_flag effect s.cpu notWritten unused)
  rw [row.mnemonic]
  refine ⟨fun h => ?_, fun h => ?_, fun h => ?_, fun h => ?_, fun h => ?_, fun h => ?_, fun h => ?_, fun h => ?_⟩
  all_goals
    have mem := written _ h
    revert mem
    cases r.mnemonic <;> decide

/-- Settles O55: a register that changed is in the mnemonic's list of written registers (`effect_register`). -/
theorem registerWriters : Obligations.RegisterWriters := by
  intro i s t wf next
  obtain ⟨r, row, f, effect, pc, n, k, cpu⟩ := exec_runsTo wf next
  have shifts := row.shift_of_accumulator
  have written (q : Register) (changed : t.cpu.register q ≠ s.cpu.register q) : q ∈ writtenRegisters r.mnemonic r.mode := by
    by_contra notWritten
    rw [cpu] at changed
    refine changed (Eq.trans ?_ (effect_register effect shifts s.cpu notWritten))
    cases q <;> rfl
  have other (q : Register) (ne : q ≠ .a) (changed : t.cpu.register q ≠ s.cpu.register q) :
      q ∈ writtenRegisters r.mnemonic .implied :=
    (mem_writtenRegisters (written q changed)).resolve_right fun shift => ne shift.2.1
  obtain ⟨⟨micro, latches, nmi, irq, invalid⟩, phase⟩ := effect_sameEngine effect s.cpu
  rw [row.mnemonic, row.mode]
  refine ⟨fun h => ?_, fun h => ?_, fun h => ?_, fun h => ?_, fun h => ?_, ?_⟩
  · obtain mem | ⟨acc, -, shift⟩ := mem_writtenRegisters (written .a h)
    · refine .inl ?_
      revert mem
      cases r.mnemonic <;> decide
    · exact .inr ⟨acc, shift⟩
  · have mem := other .x (by decide) h
    revert mem
    cases r.mnemonic <;> decide
  · have mem := other .y (by decide) h
    revert mem
    cases r.mnemonic <;> decide
  · have mem := other .s (by decide) h
    revert mem
    cases r.mnemonic <;> decide
  · rw [cpu] at h
    exact phase.resolve_left h
  · rw [cpu]
    exact ⟨micro, latches, nmi, irq, invalid⟩

end Sys2Proof.Machine
end

section
/-! PROOFS. What the machine cannot see: a change of the core and the bus record that no register read, no flag but B, no status
byte pushed and no byte of memory shows. Every instruction and every interrupt entry commutes with such a change. -/

namespace Sys2Proof.Machine

/-- The change `g` of the core and `h` of the RAM is hidden: what the machine reads is as before, and its operations commute. -/
structure Hidden (g : Cpu → Cpu) (h : Ram → Ram) : Prop where
  registers : ∀ c : Cpu, (g c).a = c.a ∧ (g c).x = c.x ∧ (g c).y = c.y ∧ (g c).s = c.s ∧ (g c).pc = c.pc
  flag : ∀ (c : Cpu) {f : Flag}, f ≠ .b → (g c).flag f = c.flag f
  statusForBreak : ∀ c : Cpu, (g c).statusForBreak = c.statusForBreak
  statusForInterrupt : ∀ c : Cpu, (g c).statusForInterrupt = c.statusForInterrupt
  tick : ∀ c : Cpu, (g c).tick = g c.tick
  incPc : ∀ c : Cpu, (g c).incPc = g c.incPc
  jump : ∀ (w : Word) (c : Cpu), (g c).jump w = g (c.jump w)
  incS : ∀ c : Cpu, (g c).incS = g c.incS
  decS : ∀ c : Cpu, (g c).decS = g c.decS
  retire : ∀ c : Cpu, (g c).retire = g c.retire
  halt : ∀ c : Cpu, (g c).halt = g c.halt
  setP : ∀ (v : Byte) (c : Cpu), (g c).setP v = g (c.setP v)
  setI : ∀ c : Cpu, (g c).setFlag .i true = g (c.setFlag .i true)
  pla : ∀ (v : Byte) (c : Cpu), (g c).opPla v = g (c.opPla v)
  read : ∀ (mn : Mnemonic) (m : Byte) (c : Cpu), readEffect {} mn m (g c) = g (readEffect {} mn m c)
  modify : ∀ (mn : Mnemonic) (m : Byte) (c : Cpu), modifyEffect mn m (g c) = ((modifyEffect mn m c).1, g (modifyEffect mn m c).2)
  accumulator : ∀ (mn : Mnemonic) (c : Cpu), onAccumulator (modifyEffect mn) (g c) = g (onAccumulator (modifyEffect mn) c)
  implied : ∀ (mn : Mnemonic) (c : Cpu), impliedEffect mn (g c) = g (impliedEffect mn c)
  unstable : ∀ (mn : Mnemonic) (regs : Cpu → Byte × Cpu), unstableEffect mn = some regs →
    ∀ c : Cpu, regs (g c) = ((regs c).1, g (regs c).2)
  mem : ∀ b : Ram, (h b).mem = b.mem
  busRead : ∀ (b : Ram) (a : Word), ((h b).read a).2 = h (b.read a).2
  busWrite : ∀ (b : Ram) (a : Word) (v : Byte), (h b).write a v = h (b.write a v)

/-- A state with the change made. -/
def overlay (g : Cpu → Cpu) (h : Ram → Ram) (s : State) : State := ⟨g s.cpu, h s.bus⟩

section
variable {g : Cpu → Cpu} {h : Ram → Ram} (hidden : Hidden g h) (s : State)
include hidden

/-! ## One rule per operation -/

theorem Hidden.s_eq (c : Cpu) : (g c).s = c.s := (hidden.registers c).2.2.2.1
theorem Hidden.pc_eq (c : Cpu) : (g c).pc = c.pc := (hidden.registers c).2.2.2.2

theorem Hidden.index_eq (i : Index) (c : Cpu) : (g c).index i = c.index i := by
  obtain ⟨-, x, y, -⟩ := hidden.registers c
  cases i with
  | x => exact x
  | y => exact y

omit hidden in
theorem mapCpu_overlay {f : Cpu → Cpu} (comm : ∀ c, f (g c) = g (f c)) :
    (overlay g h s).mapCpu f = overlay g h (s.mapCpu f) :=
  congrArg (fun c => (⟨c, h s.bus⟩ : State)) (comm s.cpu)

theorem Hidden.busRead_overlay (a : Word) : (overlay g h s).busRead a = ((s.busRead a).1, overlay g h (s.busRead a).2) := by
  have value : memRead (h s.bus).mem a = memRead s.bus.mem a := by rw [hidden.mem]
  have state : (⟨(g s.cpu).tick, ((h s.bus).read a).2⟩ : State) = ⟨g s.cpu.tick, h (s.bus.read a).2⟩ := by
    rw [hidden.tick, hidden.busRead]
  exact Prod.ext value state

theorem Hidden.busWrite_overlay (a : Word) (v : Byte) : (overlay g h s).busWrite a v = overlay g h (s.busWrite a v) := by
  show (⟨(g s.cpu).tick, (h s.bus).write a v⟩ : State) = ⟨g s.cpu.tick, h (s.bus.write a v)⟩
  rw [hidden.tick, hidden.busWrite]

theorem Hidden.dummyRead_overlay (a : Word) : (overlay g h s).dummyRead a = overlay g h (s.dummyRead a) :=
  congrArg Prod.snd (hidden.busRead_overlay s a)

theorem Hidden.retire_overlay : (overlay g h s).retire = overlay g h s.retire := mapCpu_overlay s hidden.retire

theorem Hidden.fetched_overlay : (overlay g h s).fetched = overlay g h s.fetched := by
  have read := congrArg Prod.snd (hidden.busRead_overlay s s.cpu.pc)
  show ((overlay g h s).busRead (g s.cpu).pc).2.mapCpu Cpu.incPc = _
  rw [hidden.pc_eq, read]
  exact mapCpu_overlay _ hidden.incPc

theorem Hidden.dummyPc_overlay : (overlay g h s).dummyPc = overlay g h s.dummyPc := by
  show (overlay g h s).dummyRead (g s.cpu).pc = _
  rw [hidden.pc_eq]
  exact hidden.dummyRead_overlay s s.cpu.pc

theorem Hidden.dummyStack_overlay : (overlay g h s).dummyStack = overlay g h s.dummyStack := by
  show (overlay g h s).dummyRead (stackAddr (g s.cpu).s) = _
  rw [hidden.s_eq]
  exact hidden.dummyRead_overlay s (stackAddr s.cpu.s)

theorem Hidden.push_overlay (v : Byte) : (overlay g h s).push v = overlay g h (s.push v) := by
  show ((overlay g h s).busWrite (stackAddr (g s.cpu).s) v).mapCpu Cpu.decS = _
  rw [hidden.s_eq, hidden.busWrite_overlay]
  exact mapCpu_overlay _ hidden.decS

theorem Hidden.pull_overlay : (overlay g h s).pull = (s.pull.1, overlay g h s.pull.2) := by
  show ((overlay g h s).mapCpu Cpu.incS).busRead (stackAddr ((g s.cpu).s + 1)) = _
  rw [hidden.s_eq, mapCpu_overlay s hidden.incS]
  exact hidden.busRead_overlay _ _

/-! ## Address cycles -/

omit hidden in
theorem overlay_cpu : (overlay g h s).cpu = g s.cpu := rfl

/-- The address cycles of every mode find the same addresses. -/
theorem Hidden.locate_overlay (mode : Mode) (b1 b2 : Byte) :
    locate mode b1 b2 (overlay g h s) = { locate mode b1 b2 s with st := overlay g h (locate mode b1 b2 s).st } := by
  have x (c : Cpu) : (g c).x = c.x := (hidden.registers c).2.1
  have y (c : Cpu) : (g c).y = c.y := (hidden.registers c).2.2.1
  cases mode with
  | zeropage => simp only [locate, locZeropage, Located.direct, hidden.fetched_overlay]
  | zeropageX | zeropageY =>
    simp only [locate, locZeropageIndexed, Located.direct, hidden.fetched_overlay, hidden.dummyRead_overlay, overlay_cpu,
      hidden.index_eq]
  | absoluteX | absoluteY =>
    simp only [locate, locAbsoluteIndexed, Located.onBase, hidden.fetched_overlay, overlay_cpu, hidden.index_eq]
  | indirectX =>
    simp only [locate, locIndirectX, Located.direct, hidden.fetched_overlay, hidden.dummyRead_overlay, hidden.busRead_overlay,
      overlay_cpu, x]
  | indirectY =>
    simp only [locate, locIndirectY, Located.onBase, hidden.fetched_overlay, hidden.busRead_overlay, overlay_cpu, y]
  | _ => simp only [locate, locAbsolute, Located.direct, hidden.fetched_overlay]

/-! ## Data cycles -/

section
variable (l : Located)

theorem Hidden.uncorrectedRead_overlay :
    ({ l with st := overlay g h l.st } : Located).uncorrectedRead = overlay g h l.uncorrectedRead := by
  cases indexed : l.indexed with
  | true => simp only [Located.uncorrectedRead, indexed, if_true, hidden.dummyRead_overlay]
  | false => simp only [Located.uncorrectedRead, indexed, Bool.false_eq_true, if_false]

theorem Hidden.readAt_overlay (mn : Mnemonic) :
    readAt (readEffect {} mn) { l with st := overlay g h l.st } = overlay g h (readAt (readEffect {} mn) l) := by
  have effect (m : Byte) (u : State) : (overlay g h u).mapCpu (readEffect {} mn m) = overlay g h (u.mapCpu (readEffect {} mn m)) :=
    mapCpu_overlay u (hidden.read mn m)
  cases crossed : l.crossed with
  | true => simp only [readAt, crossed, if_true, hidden.busRead_overlay, effect, hidden.retire_overlay]
  | false => simp only [readAt, crossed, Bool.false_eq_true, if_false, hidden.busRead_overlay, effect, hidden.retire_overlay]

theorem Hidden.writeAt_overlay (mn : Mnemonic) :
    writeAt (writeEffect mn) { l with st := overlay g h l.st } = overlay g h (writeAt (writeEffect mn) l) := by
  have value (c : Cpu) : writeEffect mn (g c) = writeEffect mn c := by
    obtain ⟨a, x, y, -, -⟩ := hidden.registers c
    cases mn with
    | stx => exact x
    | sty => exact y
    | sax => exact congrArg₂ (· &&& ·) a x
    | _ => exact a
  simp only [writeAt, hidden.uncorrectedRead_overlay, overlay_cpu, value, hidden.busWrite_overlay, hidden.retire_overlay]

theorem Hidden.unstableWriteAt_overlay {mn : Mnemonic} {regs : Cpu → Byte × Cpu} (unstable : unstableEffect mn = some regs) :
    unstableWriteAt regs { l with st := overlay g h l.st } = overlay g h (unstableWriteAt regs l) := by
  have effect (u : State) : ({ overlay g h u with cpu := g (regs u.cpu).2 } : State) = overlay g h { u with cpu := (regs u.cpu).2 } := rfl
  simp only [unstableWriteAt, hidden.uncorrectedRead_overlay, overlay_cpu, hidden.unstable mn regs unstable, effect,
    hidden.busWrite_overlay, hidden.retire_overlay]

theorem Hidden.modifyAt_overlay (mn : Mnemonic) :
    modifyAt (modifyEffect mn) { l with st := overlay g h l.st } = overlay g h (modifyAt (modifyEffect mn) l) := by
  have effect (u : State) (m : Byte) : ({ overlay g h u with cpu := g (modifyEffect mn m u.cpu).2 } : State) =
    overlay g h { u with cpu := (modifyEffect mn m u.cpu).2 } := rfl
  simp only [modifyAt, hidden.uncorrectedRead_overlay, hidden.busRead_overlay, hidden.busWrite_overlay, overlay_cpu, hidden.modify,
    effect, hidden.retire_overlay]

end

/-! ## Control entries -/

theorem Hidden.enterHandler_overlay (status : Byte) (v : Word) :
    (overlay g h s).enterHandler status v = overlay g h (s.enterHandler status v) := by
  have setI (u : State) : (overlay g h u).mapCpu (Cpu.setFlag .i true) = overlay g h (u.mapCpu (Cpu.setFlag .i true)) :=
    mapCpu_overlay u hidden.setI
  have jump (w : Word) (u : State) : (overlay g h u).mapCpu (Cpu.jump w) = overlay g h (u.mapCpu (Cpu.jump w)) :=
    mapCpu_overlay u (hidden.jump w)
  simp only [State.enterHandler, overlay_cpu, hidden.pc_eq, hidden.push_overlay, hidden.busRead_overlay, setI, jump]

theorem Hidden.branch_overlay {f : Flag} (visible : f ≠ .b) (want : Bool) (off : Byte) :
    branch f want off (overlay g h s) = overlay g h (branch f want off s) := by
  have jump (w : Word) (u : State) : (overlay g h u).mapCpu (Cpu.jump w) = overlay g h (u.mapCpu (Cpu.jump w)) :=
    mapCpu_overlay u (hidden.jump w)
  simp only [branch, hidden.fetched_overlay, overlay_cpu, hidden.flag _ visible, hidden.pc_eq, hidden.dummyPc_overlay,
    hidden.dummyRead_overlay]
  split
  · split <;> simp only [jump, hidden.retire_overlay]
  · exact hidden.retire_overlay _

theorem Hidden.implied_overlay {f : Cpu → Cpu} (comm : ∀ c, f (g c) = g (f c)) :
    Machine.implied f (overlay g h s) = overlay g h (Machine.implied f s) := by
  have effect (u : State) : (overlay g h u).mapCpu f = overlay g h (u.mapCpu f) := mapCpu_overlay u comm
  simp only [Machine.implied, hidden.fetched_overlay, hidden.dummyPc_overlay, effect, hidden.retire_overlay]

theorem Hidden.pushValue_overlay {value : Cpu → Byte} (same : ∀ c, value (g c) = value c) :
    pushValue value (overlay g h s) = overlay g h (pushValue value s) := by
  simp only [pushValue, hidden.fetched_overlay, hidden.dummyPc_overlay, overlay_cpu, same, hidden.push_overlay, hidden.retire_overlay]

theorem Hidden.pullValue_overlay {f : Byte → Cpu → Cpu} (comm : ∀ v c, f v (g c) = g (f v c)) :
    pullValue f (overlay g h s) = overlay g h (pullValue f s) := by
  have effect (v : Byte) (u : State) : (overlay g h u).mapCpu (f v) = overlay g h (u.mapCpu (f v)) := mapCpu_overlay u (comm v)
  simp only [pullValue, hidden.fetched_overlay, hidden.dummyPc_overlay, hidden.dummyStack_overlay, hidden.pull_overlay, effect,
    hidden.retire_overlay]

/-- A control entry's instruction commutes with a hidden change. -/
theorem Hidden.runControl_overlay (mn : Mnemonic) (mode : Mode) (b1 b2 : Byte) :
    runControl mn mode b1 b2 (overlay g h s) = overlay g h (runControl mn mode b1 b2 s) := by
  have jump (w : Word) (u : State) : (overlay g h u).mapCpu (Cpu.jump w) = overlay g h (u.mapCpu (Cpu.jump w)) :=
    mapCpu_overlay u (hidden.jump w)
  have setP (v : Byte) (u : State) : (overlay g h u).mapCpu (Cpu.setP v) = overlay g h (u.mapCpu (Cpu.setP v)) :=
    mapCpu_overlay u (hidden.setP v)
  have incPc (u : State) : (overlay g h u).mapCpu Cpu.incPc = overlay g h (u.mapCpu Cpu.incPc) := mapCpu_overlay u hidden.incPc
  cases short : longControl mn with
  | false =>
    have visible : (branchCondition mn).1 ≠ .b := by cases mn <;> decide
    rw [Flight.runControl_of_short short, Flight.runControl_of_short short]
    split
    · exact hidden.branch_overlay s visible _ _
    · split
      · exact hidden.implied_overlay s (hidden.accumulator mn)
      · exact hidden.implied_overlay s (hidden.implied mn)
  | true =>
    cases mn with
    | jmp =>
      simp only [runControl, jumpIndirect, jumpAbsolute, hidden.fetched_overlay, hidden.busRead_overlay, jump, hidden.retire_overlay]
      split <;> rfl
    | jsr =>
      simp only [runControl, jumpToSubroutine, hidden.fetched_overlay, hidden.dummyStack_overlay, overlay_cpu, hidden.pc_eq,
        hidden.push_overlay, hidden.busRead_overlay, jump, hidden.retire_overlay]
    | rts =>
      simp only [runControl, returnFromSubroutine, hidden.fetched_overlay, hidden.dummyPc_overlay, hidden.dummyStack_overlay,
        hidden.pull_overlay, jump, incPc, hidden.retire_overlay]
    | rti =>
      simp only [runControl, returnFromInterrupt, State.returnFromHandler, hidden.fetched_overlay, hidden.dummyPc_overlay,
        hidden.dummyStack_overlay, hidden.pull_overlay, setP, jump, hidden.retire_overlay]
    | brk =>
      simp only [runControl, breakInterrupt, hidden.fetched_overlay, overlay_cpu, hidden.statusForBreak, hidden.enterHandler_overlay,
        hidden.retire_overlay]
    | pha => exact hidden.pushValue_overlay s fun c => (hidden.registers c).1
    | php => exact hidden.pushValue_overlay s hidden.statusForBreak
    | pla => exact hidden.pullValue_overlay s hidden.pla
    | plp => exact hidden.pullValue_overlay s hidden.setP
    | _ => cases short

/-- An entry's instruction commutes with a hidden change. -/
theorem Hidden.runRow_overlay (r : Row) (b1 b2 : Byte) : runRow r b1 b2 (overlay g h s) = overlay g h (runRow r b1 b2 s) := by
  cases cls : r.cls with
  | halt =>
    have halts := mapCpu_overlay (g := g) (h := h) s.fetched hidden.halt
    simp only [runRow, cls, State.jam, hidden.fetched_overlay, halts]
  | control =>
    simp only [runRow, cls]
    exact hidden.runControl_overlay s r.mnemonic r.mode b1 b2
  | read =>
    simp only [runRow, cls]
    split
    · have effect (m : Byte) (u : State) := mapCpu_overlay (g := g) (h := h) u (hidden.read r.mnemonic m)
      simp only [immediate, hidden.fetched_overlay, effect, hidden.retire_overlay]
    · rw [hidden.locate_overlay]
      exact hidden.readAt_overlay _ _
  | write =>
    simp only [runRow, cls, hidden.locate_overlay]
    cases unstable : unstableEffect r.mnemonic with
    | none => exact hidden.writeAt_overlay _ _
    | some regs => exact hidden.unstableWriteAt_overlay _ unstable
  | rmw =>
    simp only [runRow, cls, hidden.locate_overlay]
    exact hidden.modifyAt_overlay _ _

/-- So does a well-formed instruction. -/
theorem Hidden.exec_overlay {i : Instr} (ok : i.opcodeOk = true) {t : State} (next : exec i s = .next t) :
    exec i (overlay g h s) = .next (overlay g h t) := by
  obtain ⟨r, entry, runs⟩ := exec_eq_runRow i ok s
  obtain ⟨r', entry', runs'⟩ := exec_eq_runRow i ok (overlay g h s)
  obtain rfl : r = r' := Option.some.inj (entry.symm.trans entry')
  rw [runs] at next
  cases next
  rw [runs', hidden.runRow_overlay]

theorem Hidden.interruptSequence_overlay (v : Word) :
    (overlay g h s).interruptSequence v = overlay g h (s.interruptSequence v) := by
  simp only [State.interruptSequence, hidden.dummyPc_overlay, overlay_cpu, hidden.statusForInterrupt, hidden.enterHandler_overlay]

end

/-! ## Bit 4 of P -/

/-- The core with bit 4 of P flipped. -/
def Cpu.flipBreak (c : Cpu) : Cpu := { c with p := c.p ^^^ 0x10 }

theorem getFlag_xor_0x10 (p : Byte) (f : Flag) : getFlag (p ^^^ 0x10) f = (getFlag p f ^^ decide (f = .b)) := by
  cases f <;> simp [getFlag, Flag.bit]

theorem getFlag_flipBreak (p : Byte) {f : Flag} (visible : f ≠ .b) : getFlag (p ^^^ 0x10) f = getFlag p f := by
  rw [getFlag_xor_0x10, decide_eq_false visible, Bool.xor_false]

theorem putFlag_flipBreak (p : Byte) {f : Flag} (visible : f ≠ .b) (on : Bool) :
    putFlag (p ^^^ 0x10) f on = putFlag p f on ^^^ 0x10 := by
  refine status_ext fun q => ?_
  rw [getFlag_putFlag, getFlag_xor_0x10, getFlag_xor_0x10, getFlag_putFlag]
  by_cases same : f = q
  · rw [if_pos same, if_pos same, ← same, decide_eq_false visible, Bool.xor_false]
  · rw [if_neg same, if_neg same]

/-- SetP keeps bit 4 (R27). -/
theorem setPValue_flipBreak (p v : Byte) : setPValue (p ^^^ 0x10) v = setPValue p v ^^^ 0x10 := by
  refine status_ext fun q => ?_
  rw [getFlag_setPValue, getFlag_xor_0x10, getFlag_xor_0x10, getFlag_setPValue]
  cases q <;> simp

/-- The bytes pushed have bit 4 forced (R27). -/
theorem statusForBreak_flipBreak : ∀ p : Byte, (p ^^^ 0x10) ||| 0x30 = p ||| 0x30 := by decide

theorem statusForInterrupt_flipBreak : ∀ p : Byte, ((p ^^^ 0x10) &&& 0xEF) ||| 0x20 = (p &&& 0xEF) ||| 0x20 := by decide

section
variable (c : Cpu)

theorem flag_flipBreak {f : Flag} (visible : f ≠ .b) : c.flipBreak.flag f = c.flag f := getFlag_flipBreak c.p visible

theorem setFlag_flipBreak {f : Flag} (visible : f ≠ .b) (on : Bool) : c.flipBreak.setFlag f on = (c.setFlag f on).flipBreak :=
  congrArg (fun p => ({ c with p := p } : Cpu)) (putFlag_flipBreak c.p visible on)

theorem setNZ_flipBreak (v : Byte) : c.flipBreak.setNZ v = (c.setNZ v).flipBreak := by
  rw [Cpu.setNZ, setFlag_flipBreak _ (by decide), setFlag_flipBreak _ (by decide), ← Cpu.setNZ]

theorem loadA_flipBreak (v : Byte) : c.flipBreak.loadA v = (c.loadA v).flipBreak := setNZ_flipBreak { c with a := v } v

theorem compare_flipBreak (r m : Byte) : c.flipBreak.compare r m = (c.compare r m).flipBreak := by
  rw [Cpu.compare, setFlag_flipBreak _ (by decide), setFlag_flipBreak _ (by decide), setFlag_flipBreak _ (by decide), ← Cpu.compare]

theorem takeAlu_flipBreak (r : AluResult) : c.flipBreak.takeAlu r = (c.takeAlu r).flipBreak := by
  show (Cpu.flipBreak { c with a := r.value }).setAluFlags r = (({ c with a := r.value } : Cpu).setAluFlags r).flipBreak
  rw [Cpu.setAluFlags, setFlag_flipBreak _ (by decide), setFlag_flipBreak _ (by decide), setFlag_flipBreak _ (by decide),
    setFlag_flipBreak _ (by decide), ← Cpu.setAluFlags]

theorem opAdc_flipBreak (m : Byte) : c.flipBreak.opAdc m = (c.opAdc m).flipBreak := by
  have result : c.flipBreak.addResult m = c.addResult m := by
    rw [Cpu.addResult, flag_flipBreak c (by decide), flag_flipBreak c (by decide)]
    rfl
  rw [Cpu.opAdc, result, takeAlu_flipBreak, ← Cpu.opAdc]

theorem opSbc_flipBreak (m : Byte) : c.flipBreak.opSbc m = (c.opSbc m).flipBreak := by
  have result : c.flipBreak.subResult m = c.subResult m := by
    rw [Cpu.subResult, flag_flipBreak c (by decide), flag_flipBreak c (by decide)]
    rfl
  rw [Cpu.opSbc, result, takeAlu_flipBreak, ← Cpu.opSbc]

theorem opArr_flipBreak (m : Byte) : c.flipBreak.opArr m = (c.opArr m).flipBreak := by
  have carry : c.flipBreak.flag .c = c.flag .c := flag_flipBreak c (by decide)
  rw [Cpu.opArr, Cpu.opArr, flag_flipBreak c (by decide)]
  split
  · simp only [Cpu.arrDecimal, carry, setFlag_flipBreak, ne_eq, reduceCtorEq, not_false_eq_true]
    rfl
  · simp only [Cpu.arrBinary, carry, loadA_flipBreak, setFlag_flipBreak, ne_eq, reduceCtorEq, not_false_eq_true]
    rfl

theorem shifted_flipBreak (r : Byte × Bool) : c.flipBreak.shifted r = ((c.shifted r).1, (c.shifted r).2.flipBreak) := by
  rw [Cpu.shifted, setFlag_flipBreak _ (by decide), setNZ_flipBreak]
  rfl

/-- The effects of the read class commute with the flip. -/
theorem readEffect_flipBreak (mn : Mnemonic) (m : Byte) : readEffect {} mn m c.flipBreak = (readEffect {} mn m c).flipBreak := by
  cases mn with
  | lda => exact loadA_flipBreak c m
  | ldx => exact setNZ_flipBreak { c with x := m } m
  | ldy => exact setNZ_flipBreak { c with y := m } m
  | lax => exact setNZ_flipBreak { c with a := m, x := m } m
  | las => exact setNZ_flipBreak { c with a := m &&& c.s, x := m &&& c.s, s := m &&& c.s } _
  | lxa => exact setNZ_flipBreak { c with a := _, x := _ } _
  | and | ora | eor | ane => exact loadA_flipBreak c _
  | cmp | cpx | cpy => exact compare_flipBreak c _ m
  | sbx => exact compare_flipBreak { c with x := (c.a &&& c.x) - m } _ m
  | adc => exact opAdc_flipBreak c m
  | sbc => exact opSbc_flipBreak c m
  | arr => exact opArr_flipBreak c m
  | bit =>
    show Cpu.opBit m c.flipBreak = (Cpu.opBit m c).flipBreak
    rw [Cpu.opBit, setFlag_flipBreak _ (by decide), setFlag_flipBreak _ (by decide), setFlag_flipBreak _ (by decide)]
    rfl
  | anc =>
    show Cpu.opAnc m c.flipBreak = (Cpu.opAnc m c).flipBreak
    rw [Cpu.opAnc, loadA_flipBreak, setFlag_flipBreak _ (by decide)]
    rfl
  | alr =>
    show Cpu.opAlr m c.flipBreak = (Cpu.opAlr m c).flipBreak
    rw [Cpu.opAlr, setFlag_flipBreak _ (by decide), loadA_flipBreak]
    rfl
  | _ => rfl

/-- Two effects that commute with the flip make a composite that does (R168). -/
theorem composite_flipBreak {opA : Byte → Cpu → Byte × Cpu} {opB : Byte → Cpu → Cpu}
    (first : ∀ m c, opA m (Cpu.flipBreak c) = ((opA m c).1, (opA m c).2.flipBreak))
    (second : ∀ m c, opB m (Cpu.flipBreak c) = (opB m c).flipBreak) (m : Byte) :
    composite opA opB m c.flipBreak = ((composite opA opB m c).1, (composite opA opB m c).2.flipBreak) := by
  rw [composite, first]
  exact congrArg (Prod.mk _) (second _ _)

theorem opRol_flipBreak (m : Byte) : c.flipBreak.opRol m = ((c.opRol m).1, (c.opRol m).2.flipBreak) := by
  rw [Cpu.opRol, flag_flipBreak c (by decide)]
  exact shifted_flipBreak c _

theorem opRor_flipBreak (m : Byte) : c.flipBreak.opRor m = ((c.opRor m).1, (c.opRor m).2.flipBreak) := by
  rw [Cpu.opRor, flag_flipBreak c (by decide)]
  exact shifted_flipBreak c _

theorem modifyEffect_flipBreak (mn : Mnemonic) (m : Byte) :
    modifyEffect mn m c.flipBreak = ((modifyEffect mn m c).1, (modifyEffect mn m c).2.flipBreak) := by
  have read (mn : Mnemonic) (m : Byte) (c : Cpu) := readEffect_flipBreak c mn m
  have inc (m : Byte) (c : Cpu) : Cpu.opInc m c.flipBreak = ((c.opInc m).1, (c.opInc m).2.flipBreak) :=
    congrArg (Prod.mk _) (setNZ_flipBreak c _)
  have dec (m : Byte) (c : Cpu) : Cpu.opDec m c.flipBreak = ((c.opDec m).1, (c.opDec m).2.flipBreak) :=
    congrArg (Prod.mk _) (setNZ_flipBreak c _)
  cases mn with
  | inc => exact inc m c
  | dec => exact dec m c
  | asl => exact shifted_flipBreak c (asl m)
  | lsr => exact shifted_flipBreak c (lsr m)
  | rol => exact opRol_flipBreak c m
  | ror => exact opRor_flipBreak c m
  | slo => exact composite_flipBreak c (fun m c => shifted_flipBreak c (asl m)) (read .ora) m
  | rla => exact composite_flipBreak c (fun m c => opRol_flipBreak c m) (read .and) m
  | sre => exact composite_flipBreak c (fun m c => shifted_flipBreak c (lsr m)) (read .eor) m
  | rra => exact composite_flipBreak c (fun m c => opRor_flipBreak c m) (read .adc) m
  | dcp => exact composite_flipBreak c dec (read .cmp) m
  | isc => exact composite_flipBreak c inc (read .sbc) m
  | _ => rfl

theorem onAccumulator_flipBreak (mn : Mnemonic) :
    onAccumulator (modifyEffect mn) c.flipBreak = (onAccumulator (modifyEffect mn) c).flipBreak :=
  congrArg (fun r : Byte × Cpu => ({ r.2 with a := r.1 } : Cpu)) (modifyEffect_flipBreak c mn c.a)

theorem impliedEffect_flipBreak (mn : Mnemonic) : impliedEffect mn c.flipBreak = (impliedEffect mn c).flipBreak := by
  cases mn with
  | tax | tsx | inx | dex => exact setNZ_flipBreak { c with x := _ } _
  | tay | iny | dey => exact setNZ_flipBreak { c with y := _ } _
  | txa | tya => exact setNZ_flipBreak { c with a := _ } _
  | clc | cli | cld | clv | sec | sei | sed => exact setFlag_flipBreak c (by decide) _
  | _ => rfl

end

theorem hidden_flipBreak : Hidden Cpu.flipBreak id where
  registers _ := ⟨rfl, rfl, rfl, rfl, rfl⟩
  flag c _ visible := flag_flipBreak c visible
  statusForBreak c := statusForBreak_flipBreak c.p
  statusForInterrupt c := statusForInterrupt_flipBreak c.p
  tick _ := rfl
  incPc _ := rfl
  jump _ _ := rfl
  incS _ := rfl
  decS _ := rfl
  retire _ := rfl
  halt _ := rfl
  setP v c := congrArg (fun p => ({ c with p := p } : Cpu)) (setPValue_flipBreak c.p v)
  setI c := setFlag_flipBreak c (by decide) true
  pla v c := loadA_flipBreak c v
  read mn m c := readEffect_flipBreak c mn m
  modify mn m c := modifyEffect_flipBreak c mn m
  accumulator mn c := onAccumulator_flipBreak c mn
  implied mn c := impliedEffect_flipBreak c mn
  unstable mn regs h c := by
    cases mn <;> simp only [unstableEffect, reduceCtorEq, Option.some.injEq] at h <;> subst h <;> rfl
  mem _ := rfl
  busRead _ _ := rfl
  busWrite _ _ _ := rfl

/-- Settles O56: the flip of bit 4 is a hidden change, and a well-formed instruction commutes with those. -/
theorem breakBitIsInvisible : Obligations.BreakBitIsInvisible := fun _ s _ wf next =>
  hidden_flipBreak.exec_overlay s (opcodeOk_of_wf wf) next

/-! ## The counters -/

/-- The core with counts added. -/
def Cpu.addCounts (n k : Nat) (c : Cpu) : Cpu := { c with cycles := n + c.cycles, instructions := k + c.instructions }

/-- The RAM with past accesses added to the record. -/
def Ram.addLog (past : List BusEvent) (b : Ram) : Ram := { b with log := b.log ++ past }

/-- An effect on the registers that gives a byte too commutes with what leaves the registers. -/
theorem comm_of_withRegs {f : Cpu → Byte × Cpu} (h : ∀ e c : Cpu, f (e.withRegs c) = ((f c).1, e.withRegs (f c).2)) {g : Cpu → Cpu}
    (hg : ∀ e c : Cpu, g (e.withRegs c) = (g e).withRegs c) (c : Cpu) : f (g c) = ((f c).1, g (f c).2) := by
  have self : (f c).2 = c.withRegs (f c).2 := congrArg Prod.snd (h c c)
  calc f (g c) = f ((g c).withRegs c) := congrArg f (hg c c)
    _ = ((f c).1, (g c).withRegs (f c).2) := h (g c) c
    _ = ((f c).1, g (f c).2) := by rw [← hg c, ← self]

theorem hidden_counts (n k : Nat) (past : List BusEvent) : Hidden (Cpu.addCounts n k) (Ram.addLog past) where
  registers _ := ⟨rfl, rfl, rfl, rfl, rfl⟩
  flag _ _ _ := rfl
  statusForBreak _ := rfl
  statusForInterrupt _ := rfl
  tick _ := rfl
  incPc _ := rfl
  jump _ _ := rfl
  incS _ := rfl
  decS _ := rfl
  retire _ := rfl
  halt _ := rfl
  setP _ _ := rfl
  setI _ := rfl
  pla v c := (onRegs_opPla v).comm (fun _ _ => rfl) c
  read mn m c := (onRegs_readEffect {} mn m).comm (fun _ _ => rfl) c
  modify mn m c := comm_of_withRegs (modifyEffect_withRegs mn m) (fun _ _ => rfl) c
  accumulator mn c := (onRegs_onAccumulator mn).comm (fun _ _ => rfl) c
  implied mn c := (onRegs_impliedEffect mn).comm (fun _ _ => rfl) c
  unstable _ _ h c := comm_of_withRegs (unstableEffect_withRegs h) (fun _ _ => rfl) c
  mem _ := rfl
  busRead _ _ := rfl
  busWrite _ _ _ := rfl

section
variable (n k : Nat) (past : List BusEvent)

/-- A step at a boundary counts on from the counts it finds and records on the record it finds. -/
theorem step_overlay_counts {s : State} (boundary : s.AtBoundary) :
    ∃ u, step s = .next u ∧
      step (overlay (Cpu.addCounts n k) (Ram.addLog past) s) = .next (overlay (Cpu.addCounts n k) (Ram.addLog past) u) := by
  obtain ⟨idle, live⟩ := boundary
  have hidden := hidden_counts n k past
  have event : (overlay (Cpu.addCounts n k) (Ram.addLog past) s).cpu.boundaryEvent = s.cpu.boundaryEvent := rfl
  rw [step_of_idle live idle, step_of_idle (s := overlay (Cpu.addCounts n k) (Ram.addLog past) s) live idle, boundaryStep,
    boundaryStep, event]
  cases s.cpu.boundaryEvent with
  | some e =>
    have acknowledged := mapCpu_overlay (g := Cpu.addCounts n k) (h := Ram.addLog past) (f := Cpu.acknowledge e) s
      fun _ => by cases e <;> rfl
    refine ⟨_, rfl, ?_⟩
    simp only [acknowledged, hidden.interruptSequence_overlay]
  | none =>
    obtain ⟨r, entry, -, runs⟩ := runInstruction_eq s
    obtain ⟨r', entry', -, runs'⟩ := runInstruction_eq (overlay (Cpu.addCounts n k) (Ram.addLog past) s)
    obtain rfl : r = r' := Option.some.inj (entry.symm.trans entry')
    exact ⟨_, runs, runs'.trans (congrArg _ (hidden.runRow_overlay s r _ _))⟩

end

/-- The state with the counters at 0 and no record. -/
def State.uncounted (s : State) : State := ⟨{ s.cpu with cycles := 0, instructions := 0 }, ⟨s.bus.mem, []⟩⟩

/-- A state is the uncounted one with its counts and its record added. -/
theorem overlay_uncounted (s : State) :
    overlay (Cpu.addCounts s.cpu.cycles s.cpu.instructions) (Ram.addLog s.bus.log) s.uncounted = s := rfl

theorem uncounted_eq_of_sameButCounters {s s' : State} (same : SameButCounters s s') : s.uncounted = s'.uncounted :=
  congrArg₂ (fun c m => (⟨c, ⟨m, []⟩⟩ : State)) same.1 same.2

/-- Settles O57: both machines are one uncounted machine with counts and a record added, and a step commutes with adding them. -/
theorem countersAreInvisible : Obligations.CountersAreInvisible := by
  intro s s' t boundary same stepped
  have atRest : s.uncounted.AtBoundary := boundary
  obtain ⟨u, next, counted⟩ := step_overlay_counts s.cpu.cycles s.cpu.instructions s.bus.log atRest
  obtain ⟨u', next', counted'⟩ := step_overlay_counts s'.cpu.cycles s'.cpu.instructions s'.bus.log atRest
  rw [next] at next'
  cases next'
  rw [overlay_uncounted, stepped] at counted
  rw [uncounted_eq_of_sameButCounters same, overlay_uncounted] at counted'
  cases counted
  exact ⟨_, counted', rfl, rfl⟩

end Sys2Proof.Machine
end
